-- ==== Sys2Proof/Word.lean ====
section
/-! DEFINITION. Sys2Proof/Word.lean: the plain widths of the LB24 (bytes, 16-bit counts, lane masks), the index
types of its tables (lanes, slots, ports, host lanes, presets, units), and the fixed-size table that holds records. -/

namespace Sys2Proof

/-- A byte, as hosts, the peer and the configuration memory see it. -/
abbrev Byte := BitVec 8

/-- A 16-bit count or field. -/
abbrev Half := BitVec 16

/-- A lane mask: bit n stands for lane Tn (R128). -/
abbrev Mask := BitVec 24

/-- A trunk lane T0 to T23. -/
abbrev LaneId := Fin 24

/-- A circuit slot C0 to C15. -/
abbrev SlotId := Fin 16

/-- A host port H0 to H5. -/
abbrev PortId := Fin 6

/-- A host lane L0 to L7 of a port. -/
abbrev HostLane := Fin 8

/-- An equalizer preset P0 to P11. -/
abbrev PresetId := Fin 12

/-- A measurement unit U0 to U3. -/
abbrev UnitId := Fin 4

/-- A TCC sequence number, modulo 64 (R129). -/
abbrev Seq := BitVec 6

/-- A circuit slot's generation, modulo 16 (R22). -/
abbrev Gen := BitVec 4

/-- One more, stopping at `top`: the saturating counts of the manual. -/
def satSucc (top n : Nat) : Nat := min top (n + 1)

/-- Exactly `n` records, numbered from 0. -/
structure Table (n : Nat) (α : Type) where
  cells : List α
  size : cells.length = n
  deriving DecidableEq, Repr

/-- The record numbered `i`. -/
def Table.get {n : Nat} {α : Type} (t : Table n α) (i : Fin n) : α :=
  t.cells[i.val]'(by rw [t.size]; exact i.isLt)

/-- The table with record `i` replaced. -/
def Table.set {n : Nat} {α : Type} (t : Table n α) (i : Fin n) (x : α) : Table n α :=
  ⟨t.cells.set i.val x, by rw [List.length_set]; exact t.size⟩

/-- The same record everywhere. -/
def Table.fill (n : Nat) {α : Type} (x : α) : Table n α :=
  ⟨List.replicate n x, List.length_replicate⟩

/-- The table with `f` applied to every record. -/
def Table.map {n : Nat} {α β : Type} (f : α → β) (t : Table n α) : Table n β :=
  ⟨t.cells.map f, by rw [List.length_map]; exact t.size⟩

/-- Every index of a table of `n` records, ascending. -/
def indexes (n : Nat) : List (Fin n) := List.finRange n

end Sys2Proof
end

