-- ==== Sys2Proof/Syntax.lean ====
section
/-! DEFINITION. Sys2Proof/Syntax.lean: the commands of the LB24, one constructor of `Instr` per row of the table of
operations and events, with the coded values the operands use. -/

namespace Sys2Proof

/-- SIDE strap: side A or side B (R174). -/
inductive Side where
  | a
  | b
  deriving DecidableEq, Repr

/-- The other side: the peer's. -/
def Side.peer : Side → Side
  | .a => .b
  | .b => .a

/-- Class of a request: which quota it draws on (R51, R53). -/
inductive Cls where
  | reserved
  | shared
  deriving DecidableEq, Repr

/-- A circuit tag: originating side, originating slot, generation (R24). -/
structure Tag where
  side : Side
  slot : SlotId
  gen : Gen
  deriving DecidableEq, Repr

/-- Why a lane was declared failing (R1). -/
inductive FailReason where
  | strikes
  | lockLost
  | host
  deriving DecidableEq, Repr

/-- The reason a FENCE message carries (R11, R128). -/
inductive FenceReason where
  | training
  | failure (r : FailReason)
  deriving DecidableEq, Repr

/-- The reason a REFUSE message carries (R31, R32). -/
inductive RefuseReason where
  | farPortAbsent
  | farPortLimit
  | farPortLanes
  | farTableFull
  | laneConflict
  | laneUnavailable
  deriving DecidableEq, Repr

/-- The reason of a close (R40). -/
inductive CloseReason where
  | hostClose
  | hostGone
  | noSpare
  | training
  | withdrawn
  deriving DecidableEq, Repr

/-- The result an AMEND_REPLY carries (R117). -/
inductive AmendResult where
  | ok
  | laneConflict
  | laneUnavailable
  | noCircuit
  deriving DecidableEq, Repr

/-- The outcome of a dwell (R74). -/
inductive DwellOutcome where
  | fom (figure : Byte)
  | noLock
  deriving DecidableEq, Repr

/-- A JOIN frame's payload (R128): the side, the READY and UP flags, the enable mask and the fence mask. -/
structure JoinInfo where
  side : Side
  ready : Bool
  up : Bool
  enable : Mask
  fences : Mask
  deriving DecidableEq, Repr

/-- The sequenced messages of the trunk control channel, with the payload fields of R128. Numeric fields are the
bytes the frame carries: the owning block judges them (R127). -/
inductive Msg where
  | setup (tag : Tag) (far near : Byte) (cls : Cls) (reqWidth minWidth : Byte) (pairs : List (Byte × Byte))
  | accept (tag : Tag) (slot : Byte)
  | refuse (tag : Tag) (reason : RefuseReason) (lanes : List Byte)
  | trained (tag : Tag) (pos : Byte) (ok : Bool)
  | laneFail (tag : Tag) (pos : Byte) (reason : FailReason)
  | amend (tag : Tag) (pos : Byte) (lane : Option Byte)
  | amendReply (tag : Tag) (pos : Byte) (result : AmendResult)
  | close (tag : Tag) (reason : CloseReason)
  | closed (tag : Tag)
  | fence (lane : Byte) (reason : FenceReason)
  | unfence (lane : Byte)
  deriving DecidableEq, Repr

/-- What a frame of the TCC pair carries (R128): a JOIN, an ACK, or a sequenced message. -/
inductive Body where
  | join (info : JoinInfo)
  | ack
  | msg (m : Msg)
  deriving DecidableEq, Repr

/-- A frame of the TCC pair with its seq and ack fields (R126). -/
structure Frame where
  seq : Seq
  ack : Seq
  body : Body
  deriving DecidableEq, Repr

/-- The commands of the LB24: one constructor per row of the table of operations and events. -/
inductive Instr where
  /-- DEVICE_RESET (R177): RESET_N, with the levels on the SIDE, STEER and PRESENT pins. -/
  | deviceReset (side : Side) (steer present : Table 6 Bool)
  /-- CONFIG_LOAD_END (R180): the load ends; the bytes the serial memory gave, from its first. -/
  | configLoadEnd (image : List Byte)
  /-- HOST_ARRIVAL (R164). -/
  | hostArrival (port : PortId)
  /-- HOST_DEPARTURE (R165). -/
  | hostDeparture (port : PortId)
  /-- WRITE_REQUEST (R151): a transaction ends; the bytes shifted in after the command byte. -/
  | writeRequest (port : PortId) (bytes : List Byte)
  /-- READ_REPLY (R158): a transaction ends; how many bytes were clocked after the command byte. -/
  | readReply (port : PortId) (clocked : Nat)
  /-- READ_NOTICE (R161). -/
  | readNotice (port : PortId) (clocked : Nat)
  /-- READ_STATUS (R161). -/
  | readStatus (port : PortId) (clocked : Nat)
  /-- UNKNOWN_COMMAND (R149): a transaction with an undefined command byte ends. -/
  | unknownCommand (port : PortId) (code : Byte) (clocked : Nat)
  /-- OPEN (R55), taken from the port's request slot. -/
  | openCircuit (port : PortId)
  /-- CLOSE_REQUEST (R45): the host request CLOSE. -/
  | closeRequest (port : PortId)
  /-- WITHDRAW (R62). -/
  | withdraw (port : PortId)
  /-- CIRCUIT_STATUS (R49). -/
  | circuitStatus (port : PortId)
  /-- LANE_STATUS (R21). -/
  | laneStatus (port : PortId)
  /-- TRUNK_STATUS (R147). -/
  | trunkStatus (port : PortId)
  /-- READ_LOG (R172). -/
  | readLog (port : PortId)
  /-- READ_PARAM (R181). -/
  | readParam (port : PortId)
  /-- WRITE_PARAM (R182). -/
  | writeParam (port : PortId)
  /-- FENCE_LANE (R17). -/
  | fenceLane (port : PortId)
  /-- UNFENCE_LANE (R18). -/
  | unfenceLane (port : PortId)
  /-- RESTART_TRUNK (R146). -/
  | restartTrunk (port : PortId)
  /-- BAD_FRAME (R127): a run of bytes on the line that is judged a bad frame. -/
  | badFrame (bytes : List Byte)
  /-- JOIN (R140): a good JOIN received while JOINING. -/
  | join (seq ack : Seq) (info : JoinInfo)
  /-- JOIN_WHILE_UP (R143): a good JOIN received while UP. -/
  | joinWhileUp (seq ack : Seq) (info : JoinInfo)
  /-- ACK (R133). -/
  | ack (seq ack : Seq)
  /-- SETUP (R33). -/
  | setup (seq ack : Seq) (tag : Tag) (far near : Byte) (cls : Cls) (reqWidth minWidth : Byte)
      (pairs : List (Byte × Byte))
  /-- ACCEPT (R30). -/
  | accept (seq ack : Seq) (tag : Tag) (slot : Byte)
  /-- REFUSE (R32). -/
  | refuse (seq ack : Seq) (tag : Tag) (reason : RefuseReason) (lanes : List Byte)
  /-- TRAINED (R37). -/
  | trained (seq ack : Seq) (tag : Tag) (pos : Byte) (ok : Bool)
  /-- LANE_FAIL (R111). -/
  | laneFail (seq ack : Seq) (tag : Tag) (pos : Byte) (reason : FailReason)
  /-- AMEND (R116). -/
  | amend (seq ack : Seq) (tag : Tag) (pos : Byte) (lane : Option Byte)
  /-- AMEND_REPLY (R117). -/
  | amendReply (seq ack : Seq) (tag : Tag) (pos : Byte) (result : AmendResult)
  /-- CLOSE (R42): the message CLOSE. -/
  | close (seq ack : Seq) (tag : Tag) (reason : CloseReason)
  /-- CLOSED (R41). -/
  | closed (seq ack : Seq) (tag : Tag)
  /-- FENCE (R13). -/
  | fence (seq ack : Seq) (lane : Byte) (reason : FenceReason)
  /-- UNFENCE (R14). -/
  | unfence (seq ack : Seq) (lane : Byte)
  /-- FRAME_TRANSMIT (R126): the line is free and the next waiting frame begins to be sent. -/
  | frameTransmit
  /-- CONTROL_TICK (R134). -/
  | controlTick
  /-- RETRANSMIT (R135): the control tick at which every outstanding message is resent. -/
  | retransmit
  /-- TCC_RETRY (R135): the control tick at which the retry count passes its limit. -/
  | tccRetry
  /-- PEER_SILENT (R134): the control tick at which the silence count reaches its limit. -/
  | peerSilent
  /-- SWEEP_TICK (R97). -/
  | sweepTick
  /-- QUARANTINE_RELEASE (R12): the sweep tick at which this lane's quarantine age reaches 0. -/
  | quarantineRelease (lane : LaneId)
  /-- OPEN_EXPIRED (R61): the sweep tick at which this entry's patience reaches 0. -/
  | openExpired (port : PortId) (tag : Byte)
  /-- SEEK_EXHAUSTED (R115): the sweep tick at which this position's repair patience reaches 0. -/
  | seekExhausted (slot : SlotId) (pos : Nat)
  /-- DWELL_RESULT (R75): a measurement unit finishes its dwell. -/
  | dwellResult (unit : UnitId) (outcome : DwellOutcome)
  /-- LOSS_OF_LOCK (R102): a receiver's report. -/
  | lossOfLock (lane : LaneId)
  /-- COMMAND_BYTE (R149): the command byte of a transaction is taken. -/
  | commandByte (port : PortId) (code : Byte)
  deriving DecidableEq, Repr

end Sys2Proof
end

