-- ==== Sys2Proof/Config.lean ====
section
/-! DEFINITION. Sys2Proof/Config.lean: the values the manual leaves open, as constants with no body, and the two
fixed sizes that several blocks share. A claim about an open value holds for every value it could have. -/

namespace Sys2Proof

/-- FREE VALUE (log entry 10). When the count a READ_STATUS transaction shifts out is taken is not stated: the count,
given those at the completed command byte and at the transaction end. -/
opaque Config.statusCount : Nat → Nat → Nat

/-- FREE VALUE (log entry 11). The byte an ABSENT port shifts out at each place after its status byte is not
stated. -/
opaque Config.absentByte : Nat → Byte

/-- FREE VALUE (log entry 18). No command says when a frame begins to arrive: whether a part of one had arrived at each
trunk loss, the losses counted from 0. -/
opaque Config.partAtLoss : Nat → Bool

/-- R129: the TCC window. -/
def Config.window : Nat := 8

/-- R129: the send queue's capacity. -/
def Config.sendCapacity : Nat := 64

end Sys2Proof
end

