-- ==== Sys2Proof/Machine/State.lean ====
section
/-! DEFINITION. Sys2Proof/Machine/State.lean: every piece of state the manual gives the LB24, as plain data, and the
state right after device reset. -/

namespace Sys2Proof.Machine

open Sys2Proof

/-! ### Lanes (R1, R3) -/

/-- The nine lane states (R3). -/
inductive LaneState where
  | offline
  | free
  | claimed
  | training
  | qualified
  | active
  | failing
  | releasing
  | quarantined
  deriving DecidableEq, Repr

/-- Which part of its position a lane fills (R4). -/
inductive LaneRole where
  | current
  | replacement
  deriving DecidableEq, Repr

/-- Owner slot, role and position of a lane, present together (R1). -/
structure Place where
  slot : SlotId
  role : LaneRole
  position : Nat
  deriving DecidableEq, Repr

/-- The phases of a training attempt (R84 to R88). -/
inductive Phase where
  | ascend
  | descend
  | confirm
  deriving DecidableEq, Repr

/-- A training record (R1, R84), with the look-beyond count the engine holds for the attempt. -/
structure TrainRec where
  attempt : Nat
  phase : Phase
  current : PresetId
  start : PresetId
  best : Option PresetId
  bestFom : Option Byte
  misses : Nat
  lookBeyond : Nat
  deriving DecidableEq, Repr

/-- An entry of the preset table: boost 0 to 31, pre-tap and post-tap −8 to 7 (R81, R176). -/
structure PresetEntry where
  boost : Nat
  preTap : Int
  postTap : Int
  deriving DecidableEq, Repr

/-- A lane record (R1). `applied` holds the values in the lane's receive equalizer (R73, R81). -/
structure Lane where
  state : LaneState := .offline
  place : Option Place := none
  preset : Option PresetId := none
  lastGood : Option PresetId := none
  applied : Option PresetEntry := none
  fom : Option Byte := none
  strikes : Nat := 0
  localFence : Bool := false
  peerFence : Bool := false
  failure : Option FailReason := none
  age : Option Nat := none
  failCount : Nat := 0
  missed : Nat := 0
  run : Byte := 0
  peerTrained : Bool := false
  training : Option TrainRec := none
  deriving DecidableEq, Repr

/-! ### Circuits (R22) -/

/-- The states of a non-vacant circuit (R27). -/
inductive CircuitState where
  | proposed
  | training
  | up
  | repairing
  | closing
  deriving DecidableEq, Repr

/-- Which end of a circuit this side is (R22). -/
inductive CircuitRole where
  | origin
  | answer
  deriving DecidableEq, Repr

/-- Progress of a repair of a position (R22, R109). -/
inductive RepairState where
  | none
  | seeking
  | proposed
  | replacing
  deriving DecidableEq, Repr

/-- A position record (R22). -/
structure Position where
  hostLane : HostLane
  current : Option LaneId := none
  repair : RepairState := .none
  replacement : Option LaneId := none
  attempts : Nat := 0
  patience : Option Nat := none
  dropped : Bool := false
  deriving DecidableEq, Repr

/-- A circuit record (R22) of a slot that is not VACANT. -/
structure Circuit where
  state : CircuitState
  role : CircuitRole
  tag : Tag
  answerSlot : Option SlotId
  near : PortId
  far : PortId
  cls : Cls
  reqWidth : Nat
  minWidth : Nat
  reqTag : Option Byte
  positions : List Position
  repairCount : Nat
  closeReason : Option CloseReason
  everUp : Bool
  deriving DecidableEq, Repr

/-- A circuit slot: its generation, and its circuit unless it is VACANT (R22, R23). -/
structure Slot where
  gen : Gen := 0
  circuit : Option Circuit := none
  deriving DecidableEq, Repr

/-! ### Setup queue (R51) -/

/-- A setup queue entry (R51): WAITING when `slot` is absent, PROPOSED when it is present. -/
structure Entry where
  port : PortId
  tag : Byte
  far : PortId
  cls : Cls
  reqWidth : Nat
  minWidth : Nat
  patience : Nat
  arrival : Half
  slot : Option SlotId
  reserved : List HostLane
  conflicts : Nat
  deriving DecidableEq, Repr

/-! ### Dwells (R69, R70) -/

/-- Which block asks for a dwell (R70). -/
inductive Purpose where
  | train
  | health
  deriving DecidableEq, Repr

/-- A dwell, requested or in progress: lane, purpose, the lane's run number at the request (R69, R70). -/
structure Dwell where
  lane : LaneId
  purpose : Purpose
  run : Byte
  deriving DecidableEq, Repr

/-! ### Fault log (R168, R169) -/

/-- The thirteen kinds of fault log entry (R169). -/
inductive LogKind where
  | configLoaded
  | configDefaulted
  | paramDefaulted
  | trunkUp
  | trunkLost
  | joinClash
  | tccRetransmit
  | laneTrainFail
  | laneFailing
  | laneFenced
  | laneReleased
  | laneRetired
  | sweepMissed
  deriving DecidableEq, Repr

/-- A fault log entry (R168). -/
structure LogEntry where
  seq : Half
  sweeps : Half
  sessions : Half
  kind : LogKind
  lane : Option LaneId
  tag : Option Tag
  detail : Half
  deriving DecidableEq, Repr

/-! ### Trunk (R137, R144) -/

/-- The trunk states (R137). -/
inductive TrunkState where
  | down
  | joining
  | up
  | lost
  deriving DecidableEq, Repr

/-- Why the trunk was lost (R144). -/
inductive LossReason where
  | tccRetry
  | peerSilent
  | peerRestart
  | restart
  | sendOverflow
  | sideClash
  deriving DecidableEq, Repr

/-- A timer: stopped, or running a period of so many milliseconds (R97, R134). -/
inductive Timer where
  | stopped
  | running (ms : Nat)
  deriving DecidableEq, Repr

/-! ### Host ports (R148) -/

/-- The kinds of request (R152). -/
inductive ReqKind where
  | openCircuit
  | close
  | withdraw
  | circuitStatus
  | laneStatus
  | trunkStatus
  | readLog
  | readParam
  | writeParam
  | fenceLane
  | unfenceLane
  | restartTrunk
  deriving DecidableEq, Repr

/-- A dispatched request: kind, request tag, parameter bytes (R152). -/
structure Request where
  kind : ReqKind
  tag : Byte
  params : List Byte
  deriving DecidableEq, Repr

/-- Reply status codes (R154). -/
inductive Status where
  | ok
  | queued
  | proceeding
  | notReady
  | badRequest
  | notPermitted
  | trunkDown
  | hostLanesShort
  | portLimit
  | queueFull
  | duplicateTag
  | overCeiling
  | noFloor
  | noCircuit
  | notYours
  | alreadyClosing
  | noRequest
  | badValue
  | logGap
  deriving DecidableEq, Repr

/-- A reply: the echoed kind byte and request tag, the status, the result bytes (R152). -/
structure Reply where
  kind : Byte
  tag : Byte
  status : Status
  results : List Byte
  deriving DecidableEq, Repr

/-- Why a circuit that had been up closed, as its host is told (R159). -/
inductive ClosedReason where
  | hostClose
  | peerClose
  | peerHostGone
  | noSpare
  | trunkLost
  deriving DecidableEq, Repr

/-- Why an OPEN failed, as its host is told (R159). -/
inductive OpenFailReason where
  | farPortAbsent
  | farPortLimit
  | farPortLanes
  | farTableFull
  | conflict
  | hostLanesShort
  | training
  | peerClose
  | peerHostGone
  | trunkLost
  deriving DecidableEq, Repr

/-- The notices (R159). -/
inductive Notice where
  | circuitUp (slot : SlotId) (role : CircuitRole) (tag : Option Byte) (width : Nat)
  | circuitRepairing (slot : SlotId)
  | circuitRepaired (slot : SlotId)
  | circuitNarrowed (slot : SlotId) (width : Nat)
  | circuitClosed (slot : SlotId) (reason : ClosedReason)
  | openFailed (tag : Byte) (reason : OpenFailReason)
  | openExpired (tag : Byte)
  | trunkUp
  | trunkLost (reason : LossReason)
  | noticesLost (count : Nat)
  deriving DecidableEq, Repr

/-- The port state with what its slots hold: the request slot is full in WORKING alone, the reply slot in REPLIED
alone (R148). -/
inductive Link where
  | absent
  | ready
  | working (r : Request)
  | replied (r : Reply)
  deriving DecidableEq, Repr

/-- An SPI transaction in progress (R149): its command byte, whether it is void (its command byte was taken while the
port was ABSENT, or the host departed since), the frame fixed at the command byte, and whether the port was ABSENT
then. -/
structure Transaction where
  code : Byte
  void : Bool
  frame : List Byte
  absent : Bool
  deriving DecidableEq, Repr

/-- A port record (R148). `shiftOut` holds the bytes the port shifted out in its latest transaction (R149). -/
structure Port where
  link : Link := .absent
  notices : List Notice := []
  rejected : Bool := false
  cursor : Half := 0
  steering : Bool := false
  transaction : Option Transaction := none
  shiftOut : List Byte := []
  deriving DecidableEq, Repr

/-! ### Parameters (R175, R176) -/

/-- Start policies (R83). -/
inductive StartPolicy where
  | fixed
  | last
  deriving DecidableEq, Repr

/-- The default preset table (R176). -/
def defaultPresets : Table 12 PresetEntry :=
  ⟨[⟨0, 0, 0⟩, ⟨2, 0, -1⟩, ⟨4, 0, -2⟩, ⟨6, -1, -2⟩, ⟨8, -1, -3⟩, ⟨10, -1, -4⟩, ⟨12, -2, -4⟩, ⟨14, -2, -5⟩,
    ⟨17, -2, -6⟩, ⟨20, -3, -6⟩, ⟨24, -3, -7⟩, ⟨28, -4, -8⟩], rfl⟩

/-- The live parameter values; the field defaults are the built-in defaults (R175). -/
structure Params where
  enableMask : Mask := 0xFFFFFF#24
  sweepInterval : Nat := 20
  controlTick : Nat := 4
  qualify : Nat := 96
  hold : Nat := 64
  strikeLimit : Nat := 3
  lookBeyond : Nat := 2
  trainAttempts : Nat := 2
  startPreset : PresetId := 5
  startPolicy : StartPolicy := .fixed
  release : Nat := 50
  retireLimit : Nat := 4
  repairPatience : Nat := 10
  retryLimit : Nat := 4
  silenceLimit : Nat := 8
  floors : Table 6 Nat := Table.fill 6 0
  ceilings : Table 6 Nat := Table.fill 6 8
  presets : Table 12 PresetEntry := defaultPresets
  deriving DecidableEq, Repr

/-! ### The whole state -/

/-- Marks that one event keeps while its work goes on, clear between steps (log entry 22): the pool has grown (R9), a
service scan is due (R58), the grant rule is due (R72), a message met a full send queue (R130), the event is a received
frame's, so that the line has just fallen idle (R127). -/
structure Scratch where
  grown : Bool := false
  scan : Bool := false
  grant : Bool := false
  overflow : Bool := false
  received : Bool := false
  deriving DecidableEq, Repr

/-- The configuration port in the load in progress, or in the last one: the bytes it has issued to the serial memory,
and how many bytes it has clocked in (R177). -/
structure ConfigPort where
  sent : List Byte := []
  clocked : Nat := 0
  deriving DecidableEq, Repr

/-- The LB24. `partFrame` says that a frame of which a part had arrived when the trunk was declared LOST has still to
complete (R144). The model's own fields are `losses`, which counts trunk losses and picks the free value of log entry 18,
`scratch` (log entry 22) and `pending` (log entry 1). -/
structure State where
  side : Side
  loading : Bool
  configPort : ConfigPort
  params : Params
  lanes : Table 24 Lane
  pool : List LaneId
  slots : Table 16 Slot
  queue : List Entry
  arrivals : Half
  units : Table 4 (Option Dwell)
  dwellQueue : List Dwell
  sweepTimer : Timer
  sweepCount : Half
  seeking : List (SlotId × Nat)
  trunk : TrunkState
  lastLoss : Option LossReason
  sessions : Half
  sendQueue : List Msg
  outstanding : List (Seq × Msg)
  nextSeq : Seq
  expectedSeq : Seq
  mark : Bool
  retryCount : Nat
  silenceCount : Nat
  sentSinceTick : Bool
  badFrames : Nat
  retransmissions : Nat
  peerHeard : Bool
  clash : Bool
  peerEnable : Option Mask
  peerFences : Option Mask
  joinMask : Option Mask
  joinSent : Bool
  fenceChanges : List LaneId
  controlTimer : Timer
  txFrames : List Frame
  sending : Option Frame
  partFrame : Bool
  losses : Nat
  ring : List LogEntry
  nextEntry : Half
  ports : Table 6 Port
  scratch : Scratch
  pending : List Instr
  deriving DecidableEq, Repr

/-- The reasons a step could stop with a fault: the manual names no event that stops the part, so there is none. -/
inductive Fault : Type where
  deriving DecidableEq, Repr

/-- The reasons a step could be refused. -/
inductive Refusal where
  /-- Raised only by an arm of `exec` whose command has no meaning yet; no arm is such (safe: the run stops). -/
  | notModelled (mnemonic : String)
  deriving DecidableEq, Repr

/-- A port record at device reset (R148): the steering flag is the STEER strap, the port is READY when PRESENT is
driven. -/
def Port.atReset (steer present : Bool) : Port :=
  { link := if present then .ready else .absent, steering := steer }

/-- The state after device reset, for the levels on the SIDE, STEER and PRESENT pins (R1, R22, R50, R69, R71, R97,
R109, R129, R137, R148, R167, R174, R175, R177; log entry 4 for what they do not state). -/
def State.afterReset (side : Side) (steer present : Table 6 Bool) : State where
  side := side
  loading := true
  configPort := {}
  params := {}
  lanes := Table.fill 24 {}
  pool := []
  slots := Table.fill 16 {}
  queue := []
  arrivals := 0
  units := Table.fill 4 none
  dwellQueue := []
  sweepTimer := .stopped
  sweepCount := 0
  seeking := []
  trunk := .down
  lastLoss := none
  sessions := 0
  sendQueue := []
  outstanding := []
  nextSeq := 0
  expectedSeq := 0
  mark := false
  retryCount := 0
  silenceCount := 0
  sentSinceTick := false
  badFrames := 0
  retransmissions := 0
  peerHeard := false
  clash := false
  peerEnable := none
  peerFences := none
  joinMask := none
  joinSent := false
  fenceChanges := []
  controlTimer := .stopped
  txFrames := []
  sending := none
  partFrame := false
  losses := 0
  ring := []
  nextEntry := 0
  ports :=
    ⟨(indexes 6).map fun p => Port.atReset (steer.get p) (present.get p), by simp [indexes]⟩
  scratch := {}
  pending := []

/-- The machine right after reset, with the pins at the levels log entry 3 names (DESIGN CHOICE): SIDE selects A, no
STEER strap set, no host present. -/
def State.reset : State :=
  State.afterReset .a (Table.fill 6 false) (Table.fill 6 false)

end Sys2Proof.Machine
end

