-- ==== Sys2Proof/Machine/Wire.lean ====
section
/-! DEFINITION. Sys2Proof/Machine/Wire.lean: the byte layouts of the trunk control channel: the 16-bit check, lane
masks and tags, the payload of every message kind, a frame's bytes, and the judging of a received run of bytes
(R126, R127, R128). -/

namespace Sys2Proof


/-! ### The check -/

/-- One bit into the check register: generator x^16 + x^12 + x^5 + 1, most significant bit first (R126). -/
def crcBit (r : Half) (b : Bool) : Half :=
  if xor r.msb b then (r <<< 1) ^^^ 0x1021#16 else r <<< 1

/-- One byte into the check register, most significant bit first. -/
def crcByte (r : Half) (x : Byte) : Half :=
  [7, 6, 5, 4, 3, 2, 1, 0].foldl (fun r i => crcBit r (x.getLsbD i)) r

/-- The check over some bytes: the register starts at all ones and is taken as it stands (R126, R177). -/
def crc (bytes : List Byte) : Half :=
  bytes.foldl crcByte 0xFFFF#16

/-! ### Numbers, masks and tags as bytes -/

/-- A count or index as a byte. -/
def byteOf (n : Nat) : Byte := BitVec.ofNat 8 n

/-- A 16-bit field, most significant byte first. -/
def halfBytes (h : Half) : List Byte :=
  [h.extractLsb' 8 8, h.extractLsb' 0 8]

/-- Two bytes as a 16-bit field. -/
def halfOf (hi lo : Byte) : Half := hi ++ lo

/-- A three-byte value, most significant byte first; for a lane mask T23 to T16 come first (R128, R175). -/
def maskBytes (m : Mask) : List Byte :=
  [m.extractLsb' 16 8, m.extractLsb' 8 8, m.extractLsb' 0 8]

/-- Three bytes as a 24-bit value. -/
def maskOf (a b c : Byte) : Mask := a ++ b ++ c

/-- Side codes (R128). -/
def sideByte : Side → Byte
  | .a => 0x00#8
  | .b => 0x01#8

/-- The side a code stands for. -/
def sideOf (b : Byte) : Option Side :=
  match b.toNat with
  | 0 => some .a
  | 1 => some .b
  | _ => none

/-- The second byte of a tag: slot in bits 7 to 4, generation in bits 3 to 0 (R128). -/
def slotGenByte (c : SlotId) (g : Gen) : Byte := (BitVec.ofNat 4 c.val) ++ g

/-- A tag's two bytes (R128). -/
def tagBytes (t : Tag) : List Byte := [sideByte t.side, slotGenByte t.slot t.gen]

/-- The tag two bytes stand for; none when the side code is undefined. -/
def tagOf (s sg : Byte) : Option Tag :=
  (sideOf s).map fun side => ⟨side, Fin.ofNat 16 (sg.toNat / 16), sg.extractLsb' 0 4⟩

/-- The lane a byte names; none above T23. -/
def laneOfByte (b : Byte) : Option LaneId :=
  if h : b.toNat < 24 then some ⟨b.toNat, h⟩ else none

/-- The slot a byte names; none above C15. -/
def slotOfByte (b : Byte) : Option SlotId :=
  if h : b.toNat < 16 then some ⟨b.toNat, h⟩ else none

/-- The port a byte names; none above H5. -/
def portOfByte (b : Byte) : Option PortId :=
  if h : b.toNat < 6 then some ⟨b.toNat, h⟩ else none

/-- The lanes of a mask, ascending. -/
def lanesOf (m : Mask) : List LaneId := (indexes 24).filter fun i => m.getLsbD i.val

/-- The mask in which exactly the lanes with `p` are set. -/
def maskWhere (p : LaneId → Bool) : Mask :=
  (indexes 24).foldl (fun m i => if p i then m ||| (1#24 <<< i.val) else m) 0#24

/-! ### Coded fields (R128) -/

/-- Class codes. -/
def clsByte : Cls → Byte
  | .reserved => 0x00#8
  | .shared => 0x01#8

/-- The class a code stands for. -/
def clsOf (b : Byte) : Option Cls :=
  match b.toNat with
  | 0 => some .reserved
  | 1 => some .shared
  | _ => none

/-- LANE_FAIL reason codes, which failure reasons use everywhere (R128, R157). -/
def failByte : FailReason → Byte
  | .strikes => 0x01#8
  | .lockLost => 0x02#8
  | .host => 0x03#8

/-- The failure reason a code stands for. -/
def failOf (b : Byte) : Option FailReason :=
  match b.toNat with
  | 1 => some .strikes
  | 2 => some .lockLost
  | 3 => some .host
  | _ => none

/-- FENCE reason codes. -/
def fenceByte : FenceReason → Byte
  | .training => 0x00#8
  | .failure r => failByte r

/-- The fence reason a code stands for. -/
def fenceOf (b : Byte) : Option FenceReason :=
  match b.toNat with
  | 0 => some .training
  | _ => (failOf b).map .failure

/-- REFUSE reason codes. -/
def refuseByte : RefuseReason → Byte
  | .farPortAbsent => 0x01#8
  | .farPortLimit => 0x02#8
  | .farPortLanes => 0x03#8
  | .farTableFull => 0x04#8
  | .laneConflict => 0x05#8
  | .laneUnavailable => 0x06#8

/-- The refusal a code stands for. -/
def refuseOf (b : Byte) : Option RefuseReason :=
  match b.toNat with
  | 1 => some .farPortAbsent
  | 2 => some .farPortLimit
  | 3 => some .farPortLanes
  | 4 => some .farTableFull
  | 5 => some .laneConflict
  | 6 => some .laneUnavailable
  | _ => none

/-- A lane reason carries a list of lanes; a far-port reason carries none (R31, R32). -/
def RefuseReason.isLane : RefuseReason → Bool
  | .laneConflict => true
  | .laneUnavailable => true
  | .farPortAbsent => false
  | .farPortLimit => false
  | .farPortLanes => false
  | .farTableFull => false

/-- R128: the lane count of a REFUSE is 0 for a far-port reason and 1 to 8 for a lane reason. -/
def refuseCountOk (r : RefuseReason) (n : Nat) : Bool :=
  if r.isLane then decide (1 ≤ n ∧ n ≤ 8) else decide (n = 0)

/-- CLOSE reason codes. -/
def closeByte : CloseReason → Byte
  | .hostClose => 0x01#8
  | .hostGone => 0x02#8
  | .noSpare => 0x03#8
  | .training => 0x04#8
  | .withdrawn => 0x05#8

/-- The close reason a code stands for. -/
def closeOf (b : Byte) : Option CloseReason :=
  match b.toNat with
  | 1 => some .hostClose
  | 2 => some .hostGone
  | 3 => some .noSpare
  | 4 => some .training
  | 5 => some .withdrawn
  | _ => none

/-- AMEND_REPLY result codes. -/
def amendByte : AmendResult → Byte
  | .ok => 0x00#8
  | .laneConflict => 0x01#8
  | .laneUnavailable => 0x02#8
  | .noCircuit => 0x03#8

/-- The amend result a code stands for. -/
def amendOf (b : Byte) : Option AmendResult :=
  match b.toNat with
  | 0 => some .ok
  | 1 => some .laneConflict
  | 2 => some .laneUnavailable
  | 3 => some .noCircuit
  | _ => none

/-- TRAINED result codes: OK, FAIL. -/
def trainedByte (ok : Bool) : Byte := if ok then 0x00#8 else 0x01#8

/-- Whether a TRAINED result code says OK. -/
def trainedOf (b : Byte) : Option Bool :=
  match b.toNat with
  | 0 => some true
  | 1 => some false
  | _ => none

/-- A JOIN flags byte: bit 0 READY, bit 1 UP. -/
def flagsByte (ready up : Bool) : Byte :=
  (if ready then 0x01#8 else 0x00#8) ||| (if up then 0x02#8 else 0x00#8)

/-- READY and UP of a flags byte; none when a bit above bit 1 is set. -/
def flagsOf (b : Byte) : Option (Bool × Bool) :=
  match b.toNat with
  | 0 => some (false, false)
  | 1 => some (true, false)
  | 2 => some (false, true)
  | 3 => some (true, true)
  | _ => none

/-! ### Payloads (R128) -/

/-- The kind code of a sequenced message. -/
def Msg.kindByte : Msg → Byte
  | .setup .. => 0x10#8
  | .accept .. => 0x11#8
  | .refuse .. => 0x12#8
  | .trained .. => 0x13#8
  | .laneFail .. => 0x14#8
  | .amend .. => 0x15#8
  | .amendReply .. => 0x16#8
  | .close .. => 0x17#8
  | .closed .. => 0x18#8
  | .fence .. => 0x20#8
  | .unfence .. => 0x21#8

/-- The (position, lane) pairs of a SETUP, byte by byte. -/
def pairBytes : List (Byte × Byte) → List Byte
  | [] => []
  | (p, l) :: rest => p :: l :: pairBytes rest

/-- Bytes taken two by two; none when one is left over. -/
def pairsOf : List Byte → Option (List (Byte × Byte))
  | [] => some []
  | [_] => none
  | p :: l :: rest => (pairsOf rest).map ((p, l) :: ·)

/-- The payload of a sequenced message. -/
def Msg.payload : Msg → List Byte
  | .setup t far near cls rw mw pairs =>
      tagBytes t ++ [far, near, clsByte cls, rw, mw, byteOf pairs.length] ++ pairBytes pairs
  | .accept t slot => tagBytes t ++ [slot]
  | .refuse t r lanes => tagBytes t ++ [refuseByte r, byteOf lanes.length] ++ lanes
  | .trained t p ok => tagBytes t ++ [p, trainedByte ok]
  | .laneFail t p r => tagBytes t ++ [p, failByte r]
  | .amend t p none => tagBytes t ++ [p, 0x00#8, 0x00#8]
  | .amend t p (some l) => tagBytes t ++ [p, 0x01#8, l]
  | .amendReply t p r => tagBytes t ++ [p, amendByte r]
  | .close t r => tagBytes t ++ [closeByte r]
  | .closed t => tagBytes t
  | .fence l r => [l, fenceByte r]
  | .unfence l => [l]

/-- The kind code of a frame. -/
def Body.kindByte : Body → Byte
  | .join _ => 0x01#8
  | .ack => 0x02#8
  | .msg m => m.kindByte

/-- The payload of a frame. -/
def Body.payload : Body → List Byte
  | .join j => [sideByte j.side, flagsByte j.ready j.up] ++ maskBytes j.enable ++ maskBytes j.fences
  | .ack => []
  | .msg m => m.payload

/-- The JOIN a payload holds. -/
def joinOf : List Byte → Option Body
  | [s, f, e2, e1, e0, m2, m1, m0] => do
      let side ← sideOf s
      let (ready, up) ← flagsOf f
      some (.join ⟨side, ready, up, maskOf e2 e1 e0, maskOf m2 m1 m0⟩)
  | _ => none

/-- The SETUP a payload holds: its length is worked out from the pair count (R127). -/
def setupOf : List Byte → Option Msg
  | s :: sg :: far :: near :: c :: rw :: mw :: n :: rest => do
      let t ← tagOf s sg
      let cls ← clsOf c
      let pairs ← pairsOf rest
      if rest.length = 2 * n.toNat then some (.setup t far near cls rw mw pairs) else none
  | _ => none

/-- The REFUSE a payload holds. -/
def refuseMsgOf : List Byte → Option Msg
  | s :: sg :: r :: n :: lanes => do
      let t ← tagOf s sg
      let reason ← refuseOf r
      if lanes.length = n.toNat ∧ refuseCountOk reason n.toNat = true then some (.refuse t reason lanes) else none
  | _ => none

/-- The AMEND a payload holds: a flag byte above 0x01 is undefined; the lane byte counts only when present. -/
def amendMsgOf : List Byte → Option Msg
  | [s, sg, p, flag, l] =>
      match flag.toNat with
      | 0 => (tagOf s sg).map fun t => .amend t p none
      | 1 => (tagOf s sg).map fun t => .amend t p (some l)
      | _ => none
  | _ => none

/-- The sequenced message that a kind code and a payload make; none where the kind is unknown, the length is not the
layout's, or a coded field is undefined (R127, R128). -/
def msgOf (kind : Byte) (payload : List Byte) : Option Msg :=
  match kind.toNat, payload with
  | 0x10, p => setupOf p
  | 0x11, [s, sg, slot] => (tagOf s sg).map fun t => .accept t slot
  | 0x12, p => refuseMsgOf p
  | 0x13, [s, sg, p, r] => do
      let t ← tagOf s sg
      let ok ← trainedOf r
      some (.trained t p ok)
  | 0x14, [s, sg, p, r] => do
      let t ← tagOf s sg
      let reason ← failOf r
      some (.laneFail t p reason)
  | 0x15, p => amendMsgOf p
  | 0x16, [s, sg, p, r] => do
      let t ← tagOf s sg
      let result ← amendOf r
      some (.amendReply t p result)
  | 0x17, [s, sg, r] => do
      let t ← tagOf s sg
      let reason ← closeOf r
      some (.close t reason)
  | 0x18, [s, sg] => (tagOf s sg).map .closed
  | 0x20, [l, r] => (fenceOf r).map (.fence l)
  | 0x21, [l] => some (.unfence l)
  | _, _ => none

/-- What a kind code and a payload carry; none makes the frame bad. -/
def bodyOf (kind : Byte) (payload : List Byte) : Option Body :=
  match kind.toNat with
  | 0x01 => joinOf payload
  | 0x02 => if payload = [] then some .ack else none
  | _ => (msgOf kind payload).map .msg

/-! ### Frames (R126, R127) -/

/-- The delimiter byte. -/
def delimiter : Byte := 0xC6#8

/-- The bytes a check covers: kind, seq, ack, payload length, payload. -/
def Frame.checked (f : Frame) : List Byte :=
  [f.body.kindByte, f.seq.zeroExtend 8, f.ack.zeroExtend 8, byteOf f.body.payload.length] ++ f.body.payload

/-- A frame's bytes on the line. -/
def Frame.bytes (f : Frame) : List Byte :=
  delimiter :: f.checked ++ halfBytes (crc f.checked)

/-- What the receiver makes of a run of bytes, judged when the line falls idle: no frame when no delimiter arrived. -/
inductive Verdict where
  | noFrame
  | bad
  | good (f : Frame)
  deriving DecidableEq, Repr

/-- The frame made of a kind, seq and ack byte and a payload; none when the frame is bad. -/
def frameOf (kind seq ack : Byte) (payload : List Byte) : Option Frame :=
  if seq.toNat < 64 ∧ ack.toNat < 64 then
    (bodyOf kind payload).map fun b => ⟨seq.truncate 6, ack.truncate 6, b⟩
  else none

/-- The frame in the bytes after the delimiter, up to the line falling idle; none when it is bad (R127). -/
def frameAfterDelimiter : List Byte → Option Frame
  | kind :: seq :: ack :: len :: rest =>
      let payload := rest.take len.toNat
      match rest.drop len.toNat with
      | [hi, lo] =>
          if crc (kind :: seq :: ack :: len :: payload) = halfOf hi lo then frameOf kind seq ack payload else none
      | _ => none
  | _ => none

/-- R127: bytes before the delimiter are dropped; the frame is then good or bad. -/
def judge (bytes : List Byte) : Verdict :=
  match bytes.dropWhile (· != delimiter) with
  | [] => .noFrame
  | _ :: rest =>
      match frameAfterDelimiter rest with
      | some f => .good f
      | none => .bad

/-- The command a good sequenced message makes on arrival. -/
def Msg.command (seq ack : Seq) : Msg → Instr
  | .setup t far near cls rw mw pairs => .setup seq ack t far near cls rw mw pairs
  | .accept t slot => .accept seq ack t slot
  | .refuse t r lanes => .refuse seq ack t r lanes
  | .trained t p ok => .trained seq ack t p ok
  | .laneFail t p r => .laneFail seq ack t p r
  | .amend t p l => .amend seq ack t p l
  | .amendReply t p r => .amendReply seq ack t p r
  | .close t r => .close seq ack t r
  | .closed t => .closed seq ack t
  | .fence l r => .fence seq ack l r
  | .unfence l => .unfence seq ack l

/-- The command a good frame makes on arrival; a JOIN is JOIN_WHILE_UP when the trunk is UP (R140, R143). -/
def Frame.command (up : Bool) (f : Frame) : Instr :=
  match f.body with
  | .join j => if up then .joinWhileUp f.seq f.ack j else .join f.seq f.ack j
  | .ack => .ack f.seq f.ack
  | .msg m => m.command f.seq f.ack

/-- The command that a received run of bytes makes: BAD_FRAME, the row of a good frame's kind, or none where no
delimiter arrived. -/
def commandOfLine (up : Bool) (bytes : List Byte) : Option Instr :=
  match judge bytes with
  | .noFrame => none
  | .bad => some (.badFrame bytes)
  | .good f => some (f.command up)

/-- A message whose counts fit their layout: a SETUP's payload length fits its byte, and a REFUSE lists what its
reason allows (R128). -/
def Msg.fits : Msg → Bool
  | .setup _ _ _ _ _ _ pairs => decide (pairs.length ≤ 123)
  | .refuse _ r lanes => refuseCountOk r lanes.length
  | .accept .. => true
  | .trained .. => true
  | .laneFail .. => true
  | .amend .. => true
  | .amendReply .. => true
  | .close .. => true
  | .closed .. => true
  | .fence .. => true
  | .unfence .. => true

end Sys2Proof
end

