-- ==== Sys2Proof/Machine/Ops.lean ====
section
/-! DEFINITION. Sys2Proof/Machine/Ops.lean: the named operations every block works with: reads and writes of the
tables, fault log entries, notices, replies, the transmitter and the send queue, lane moves, fences, the naming of
lanes by circuits, and lanes leaving circuits. -/

namespace Sys2Proof.Machine

open Sys2Proof

/-! ### Tables -/

/-- The record of a lane. -/
def State.lane (s : State) (i : LaneId) : Lane := s.lanes.get i

/-- A lane record changed by `f`. -/
def State.modLane (s : State) (i : LaneId) (f : Lane → Lane) : State :=
  { s with lanes := s.lanes.set i (f (s.lane i)) }

/-- The circuit of a slot; none when VACANT. -/
def State.circuit (s : State) (c : SlotId) : Option Circuit := (s.slots.get c).circuit

/-- A slot's circuit replaced; the generation stays. -/
def State.setCircuit (s : State) (c : SlotId) (x : Circuit) : State :=
  { s with slots := s.slots.set c { s.slots.get c with circuit := some x } }

/-- A circuit changed by `f`; nothing where the slot is VACANT. -/
def State.modCircuit (s : State) (c : SlotId) (f : Circuit → Circuit) : State :=
  match s.circuit c with
  | none => s
  | some x => s.setCircuit c (f x)

/-- A position of a slot's circuit. -/
def State.position (s : State) (c : SlotId) (p : Nat) : Option Position :=
  (s.circuit c).bind fun x => x.positions[p]?

/-- A position changed by `f`. -/
def State.modPosition (s : State) (c : SlotId) (p : Nat) (f : Position → Position) : State :=
  s.modCircuit c fun x => { x with positions := x.positions.modify p f }

/-- The record of a port. -/
def State.port (s : State) (h : PortId) : Port := s.ports.get h

/-- A port record changed by `f`. -/
def State.modPort (s : State) (h : PortId) (f : Port → Port) : State :=
  { s with ports := s.ports.set h (f (s.port h)) }

/-- A port is present when its state is not ABSENT (R33). -/
def Port.present (p : Port) : Bool := p.link != .absent

/-! ### Marks of the event in course -/

/-- R58: a trigger of a service scan arose. -/
def State.scanDue (s : State) : State := { s with scratch := { s.scratch with scan := true } }

/-- R9: the pool has grown. -/
def State.poolGrown (s : State) : State := { s with scratch := { s.scratch with grown := true } }

/-- R72: the grant rule is due. -/
def State.grantDue (s : State) : State := { s with scratch := { s.scratch with grant := true } }

/-! ### Fault log -/

/-- R167, R168: an entry takes the next sequence number; a full ring loses its oldest entry first. -/
def State.log (s : State) (kind : LogKind) (lane : Option LaneId) (tag : Option Tag) (detail : Half) : State :=
  { s with
    ring := (if 32 ≤ s.ring.length then s.ring.tail else s.ring)
      ++ [⟨s.nextEntry, s.sweepCount, s.sessions, kind, lane, tag, detail⟩]
    nextEntry := s.nextEntry + 1 }

/-- R169: a detail of two values, the first in the high byte. -/
def detail2 (hi lo : Byte) : Half := hi ++ lo

/-- R167: the oldest held sequence number. -/
def State.oldestEntry (s : State) : Half := s.nextEntry - BitVec.ofNat 16 s.ring.length

/-! ### Notices and replies -/

/-- R160: a notice queue that receives a notice. -/
def queueNotice (q : List Notice) (n : Notice) : List Notice :=
  if q.length < 15 then q ++ [n]
  else
    match q.getLast? with
    | some (.noticesLost k) => q.dropLast ++ [.noticesLost (satSucc 255 k)]
    | _ => if q.length = 15 then q ++ [.noticesLost 1] else q

/-- R160: a notice placed for a port; discarded where the port is ABSENT. -/
def State.notify (s : State) (h : PortId) (n : Notice) : State :=
  if (s.port h).present then s.modPort h fun p => { p with notices := queueNotice p.notices n } else s

/-- A notice placed for every port, in port order: present hosts receive it (R141, R144). -/
def State.notifyAll (s : State) (n : Notice) : State :=
  (indexes 6).foldl (fun s h => s.notify h n) s

/-- R152: the code of a request kind. -/
def ReqKind.code : ReqKind → Byte
  | .openCircuit => 0x01#8
  | .close => 0x02#8
  | .withdraw => 0x03#8
  | .circuitStatus => 0x04#8
  | .laneStatus => 0x05#8
  | .trunkStatus => 0x06#8
  | .readLog => 0x07#8
  | .readParam => 0x08#8
  | .writeParam => 0x09#8
  | .fenceLane => 0x0A#8
  | .unfenceLane => 0x0B#8
  | .restartTrunk => 0x0C#8

/-- R154: the reply to a request is placed in the port's reply slot; the request slot empties and the port goes
REPLIED. A reply finds no request to answer when the port holds none. -/
def State.reply (s : State) (h : PortId) (status : Status) (results : List Byte) : State :=
  s.modPort h fun p =>
    match p.link with
    | .working r => { p with link := .replied ⟨r.kind.code, r.tag, status, results⟩ }
    | _ => p

/-! ### Transmitter and send queue -/

/-- Whether two frames are both JOIN or both ACK: such a frame replaces the waiting one (R126). -/
def sameUnsequenced : Body → Body → Bool
  | .join _, .join _ => true
  | .ack, .ack => true
  | _, _ => false

/-- R126: a frame joins the frame list; an ACK or a JOIN replaces a waiting frame of its kind in its place. -/
def queueFrame (q : List Frame) (f : Frame) : List Frame :=
  if q.any (fun g => sameUnsequenced g.body f.body) then
    q.map fun g => if sameUnsequenced g.body f.body then f else g
  else q ++ [f]

/-- R131: a frame is handed to the transmitter, which sets the sent-since-tick flag; its ack field is the expected
seq at this moment. -/
def State.hand (s : State) (seq : Seq) (b : Body) : State :=
  { s with txFrames := queueFrame s.txFrames ⟨seq, s.expectedSeq, b⟩, sentSinceTick := true }

/-- A waiting frame of a sequenced message whose seq is among `seqs`. -/
def frameCarries (seqs : List Seq) (f : Frame) : Bool :=
  match f.body with
  | .msg _ => decide (f.seq ∈ seqs)
  | _ => false

/-- R126: the frames of the messages with these seqs leave the frame list. -/
def State.dropFrames (s : State) (seqs : List Seq) : State :=
  { s with txFrames := s.txFrames.filter fun f => !frameCarries seqs f }

/-- R131: transmission from the send queue while the window allows; at most `n` messages. -/
def State.transmit : Nat → State → State
  | 0, s => s
  | n + 1, s =>
      match s.sendQueue with
      | [] => s
      | m :: rest =>
          if s.outstanding.length < Config.window then
            State.transmit n
              ({ s with
                  sendQueue := rest
                  outstanding := s.outstanding ++ [(s.nextSeq, m)]
                  nextSeq := s.nextSeq + 1 }.hand s.nextSeq (.msg m))
          else s

/-- R130: a message is placed on the send queue, and transmission follows. It is discarded while the trunk is not UP;
a message that meets a full queue, and every later one of the event, is discarded and the loss is marked. -/
def State.send (s : State) (m : Msg) : State :=
  if s.trunk ≠ .up then s
  else if s.scratch.overflow then s
  else if Config.sendCapacity ≤ s.sendQueue.length then
    { s with scratch := { s.scratch with overflow := true } }
  else State.transmit Config.window { s with sendQueue := s.sendQueue ++ [m] }

/-- R133: the ack field of a good sequenced frame or ACK names the next seq its sender expects. -/
def State.acknowledge (s : State) (ack : Seq) : State :=
  match s.outstanding with
  | [] => s
  | (oldest, _) :: _ =>
      let n := (ack - oldest).toNat
      if 1 ≤ n ∧ n ≤ s.outstanding.length then
        let s := s.dropFrames ((s.outstanding.take n).map Prod.fst)
        State.transmit Config.window
          { s with outstanding := s.outstanding.drop n, mark := false, retryCount := 0 }
      else s

/-! ### Lane moves -/

/-- R2, R3: a lane's state changes: its run number advances, its strikes return to 0 when it leaves ACTIVE, and its
training record goes. -/
def Lane.enter (st : LaneState) (l : Lane) : Lane :=
  { l with
    state := st
    run := l.run + 1
    strikes := if l.state = .active then 0 else l.strikes
    training := none }

/-- R76: the lane's queued dwell request is removed. -/
def State.cancelDwell (s : State) (i : LaneId) : State :=
  { s with dwellQueue := s.dwellQueue.filter fun d => decide (d.lane ≠ i) }

/-- A lane goes to a state other than FREE: it is in the pool no longer (R5). -/
def State.moveLane (s : State) (i : LaneId) (st : LaneState) : State :=
  let s := (s.modLane i (Lane.enter st)).cancelDwell i
  { s with pool := s.pool.filter fun j => decide (j ≠ i) }

/-- Where a lane that becomes FREE joins the pool (R8, R9). -/
inductive PoolEnd where
  | head
  | tail
  deriving DecidableEq, Repr

/-- R4, R15: owner, role, position and peer trained become clear. -/
def Lane.clearPlace (l : Lane) : Lane := { l with place := none, peerTrained := false }

/-- R8, R9, R15: a lane leaves its circuit or quarantine, becomes FREE and joins the pool. -/
def State.freeLane (e : PoolEnd) (s : State) (i : LaneId) : State :=
  let s := ((s.modLane i fun l => { (l.enter .free).clearPlace with failure := none }).cancelDwell i).poolGrown
  let rest := s.pool.filter fun j => decide (j ≠ i)
  { s with pool := match e with | .head => i :: rest | .tail => rest ++ [i] }

/-- A lane becomes QUARANTINED; if it was in a circuit it leaves it (R15). -/
def State.quarantine (s : State) (i : LaneId) : State :=
  (s.modLane i Lane.clearPlace).moveLane i .quarantined

/-- R6, R7, R28, R35, R114: a lane is taken into a circuit, with owner, role and position set and peer trained
clear. -/
def State.takeLane (s : State) (i : LaneId) (st : LaneState) (pl : Place) : State :=
  (s.moveLane i st).modLane i fun l => { l with place := some pl, peerTrained := false }

/-- The peer fence is set (R14). -/
def State.setPeerFence (s : State) (i : LaneId) : State := s.modLane i fun l => { l with peerFence := true }

/-- R24: the tag of the circuit that owns a lane. -/
def State.ownerTag (s : State) (i : LaneId) : Option Tag :=
  (s.lane i).place.bind fun pl => (s.circuit pl.slot).map (·.tag)

/-! ### Local fences (R11) -/

/-- Why a local fence is set: a training failure with the figure of its last CONFIRM dwell, or a failure reason. -/
inductive FenceCause where
  | training (figure : Byte)
  | failure (r : FailReason)
  deriving DecidableEq, Repr

/-- The reason a fence's FENCE message carries. -/
def FenceCause.reason : FenceCause → FenceReason
  | .training _ => .training
  | .failure r => .failure r

/-- R142: a lane whose local fence changes in a JOINING period, after the period's first JOIN, is listed once. -/
def State.noteFenceChange (s : State) (i : LaneId) : State :=
  if s.trunk = .joining ∧ s.joinSent = true ∧ i ∉ s.fenceChanges then
    { s with fenceChanges := s.fenceChanges ++ [i] }
  else s

/-- R11 steps 1 and 2: the fail count rises; the lane is retired (no age), or takes the release parameter as its
age. -/
def Lane.fenceLocally (p : Params) (l : Lane) : Lane :=
  let n := satSucc 255 l.failCount
  { l with
    localFence := true
    failCount := n
    age := if p.retireLimit ≤ n ∨ p.release = 0 then none else some p.release }

/-- R11, R169: the entry that records a setting of the local fence. -/
def State.logFence (s : State) (i : LaneId) (tag : Option Tag) (cause : FenceCause) : State :=
  match cause with
  | .training figure => s.log .laneTrainFail (some i) tag (figure.zeroExtend 16)
  | .failure r => s.log .laneFenced (some i) tag (detail2 (failByte r) (byteOf (s.lane i).failCount))

/-- R11: the local fence is set: fail count and age, FENCE where the trunk is UP, the entry, and LANE_RETIRED behind
it where the lane is retired. -/
def State.setLocalFence (s : State) (i : LaneId) (tag : Option Tag) (cause : FenceCause) : State :=
  let s := (s.modLane i (Lane.fenceLocally s.params)).noteFenceChange i
  let s := (s.send (.fence (byteOf i.val) cause.reason)).logFence i tag cause
  if s.params.retireLimit ≤ (s.lane i).failCount then
    s.log .laneRetired (some i) tag (BitVec.ofNat 16 (s.lane i).failCount)
  else s

/-- R12, R18: the local fence is cleared and the age becomes absent. -/
def State.clearLocalFence (s : State) (i : LaneId) : State :=
  ((s.modLane i fun l => { l with localFence := false, age := none }).noteFenceChange i).send
    (.unfence (byteOf i.val))

/-! ### Lanes named by circuits (R26) -/

/-- The lanes a position names, current before replacement. -/
def Position.lanes (q : Position) : List LaneId := q.current.toList ++ q.replacement.toList

/-- The lanes a circuit names, in position order (R15). -/
def Circuit.lanes (x : Circuit) : List LaneId := x.positions.flatMap Position.lanes

/-- The positions that are not dropped number the current width (R25). -/
def Circuit.width (x : Circuit) : Nat := (x.positions.filter fun q => !q.dropped).length

/-- The position field that names a lane becomes absent (R26). -/
def State.unname (s : State) (i : LaneId) : State :=
  match (s.lane i).place with
  | none => s
  | some pl =>
      s.modPosition pl.slot pl.position fun q =>
        match pl.role with
        | .current => { q with current := none }
        | .replacement => { q with replacement := none }

/-! ### Lanes leaving circuits (R15) -/

/-- R15 steps 1 to 3: a lane with a failure reason is fenced locally; else the peer fence is presumed where the rule
asks for it; a fenced lane becomes QUARANTINED, any other is left for step 4. -/
def State.leaveFenced (presume : Bool) (s : State) (i : LaneId) : State :=
  match (s.lane i).failure with
  | some r => (s.setLocalFence i (s.ownerTag i) (.failure r)).quarantine i
  | none =>
      let s := if presume then s.setPeerFence i else s
      if (s.lane i).localFence || (s.lane i).peerFence then s.quarantine i else s

/-- R15: lanes leave a circuit in one event, taken in the order given; those that become FREE join the pool at its
tail in that order, or stand at its head in that order. -/
def State.leaveAll (s : State) (lanes : List LaneId) (presume : Bool) (e : PoolEnd) : State :=
  let s' := lanes.foldl (State.leaveFenced presume) s
  let freed := lanes.filter fun i => (s'.lane i).state != .quarantined
  match e with
  | .tail => freed.foldl (State.freeLane .tail) s'
  | .head => freed.reverse.foldl (State.freeLane .head) s'

/-! ### Host lanes (R25) -/

/-- The host lanes a circuit holds: one for each position not dropped. -/
def Circuit.hostLanes (x : Circuit) : List HostLane :=
  (x.positions.filter fun q => !q.dropped).map (·.hostLane)

/-- The non-vacant circuits, in slot order. -/
def State.circuits (s : State) : List (SlotId × Circuit) :=
  (indexes 16).filterMap fun c => (s.circuit c).map (c, ·)

/-- The non-vacant circuits whose near port is `h` (R33, R57). -/
def State.circuitsOf (s : State) (h : PortId) : List (SlotId × Circuit) :=
  s.circuits.filter fun cx => cx.2.near = h

/-- The WAITING entries of a port (R57). -/
def State.waitingOf (s : State) (h : PortId) : List Entry :=
  s.queue.filter fun e => e.port = h ∧ e.slot = none

/-- R57: circuits plus WAITING entries of a port. -/
def State.portLoad (s : State) (h : PortId) : Nat := (s.circuitsOf h).length + (s.waitingOf h).length

/-- R25: the free host lanes of a port, ascending. -/
def State.freeHostLanes (s : State) (h : PortId) : List HostLane :=
  let held := (s.circuitsOf h).flatMap (fun cx => cx.2.hostLanes) ++ (s.waitingOf h).flatMap (·.reserved)
  (indexes 8).filter fun l => decide (l ∉ held)

/-- R23: the lowest-numbered VACANT slot. -/
def State.vacantSlot (s : State) : Option SlotId :=
  (indexes 16).find? fun c => (s.circuit c).isNone

/-- R23: a slot becomes VACANT: its generation advances, its positions leave the seeking list, and the Admission Unit
is told. -/
def State.vacate (s : State) (c : SlotId) : State :=
  { s with
    slots := s.slots.set c { gen := (s.slots.get c).gen + 1, circuit := none }
    seeking := s.seeking.filter fun cp => decide (cp.1 ≠ c) }.scanDue

end Sys2Proof.Machine
end

