-- ==== Sys2Proof/Machine/Flags.lean ====
section
/-! DEFINITION. Sys2Proof/Machine/Flags.lean: what the outside sees of State without a transaction of its own: the
port status byte, the attention line, what lane transmitters send, and the crosspoint's bindings (R3, R10, R150,
R162). -/

namespace Sys2Proof.Machine

open Sys2Proof

/-- R150: the code of a port state. -/
def Link.code : Link → Byte
  | .absent => 0
  | .ready => 1
  | .working _ => 2
  | .replied _ => 3

/-- A flag at a bit of a byte. -/
def bitAt (n : Nat) (b : Bool) : Byte := if b then 1#8 <<< n else 0

/-- R150: the port status byte. -/
def State.statusByte (s : State) (h : PortId) : Byte :=
  let p := s.port h
  p.link.code ||| bitAt 2 (!p.notices.isEmpty) ||| bitAt 3 p.rejected ||| bitAt 4 s.loading

/-- R162: the attention line of a port. -/
def Port.attn (p : Port) : Bool :=
  match p.link with
  | .absent => false
  | .replied _ => true
  | .ready => !p.notices.isEmpty
  | .working _ => !p.notices.isEmpty

/-- What a lane's transmitter sends (R3). -/
inductive LineSignal where
  | idle
  | trainingPattern
  | data
  deriving DecidableEq, Repr

/-- R3: the transmitter follows the lane state. -/
def LaneState.transmits : LaneState → LineSignal
  | .offline => .idle
  | .free => .idle
  | .claimed => .trainingPattern
  | .training => .trainingPattern
  | .qualified => .trainingPattern
  | .active => .data
  | .failing => .data
  | .releasing => .idle
  | .quarantined => .idle

/-- R10: the port and host lane a trunk lane is bound to in the crosspoint: those of its position, exactly while it is
ACTIVE or FAILING. -/
def State.boundTo (s : State) (i : LaneId) : Option (PortId × HostLane) :=
  if (s.lane i).state = .active ∨ (s.lane i).state = .failing then do
    let pl ← (s.lane i).place
    let x ← s.circuit pl.slot
    let q ← x.positions[pl.position]?
    some (x.near, q.hostLane)
  else none

end Sys2Proof.Machine
end

