-- ==== Sys2Proof/Machine/Dwell.lean ====
section
/-! DEFINITION. Sys2Proof/Machine/Dwell.lean: the Dwell Scheduler's queue and grant rule, and the Training Engine's
attempts and search (R69 to R73, R81 to R89). -/

namespace Sys2Proof.Machine

open Sys2Proof

/-! ### Requests (R70, R71) -/

/-- A lane has a request in the dwell queue. -/
def State.dwellQueued (s : State) (i : LaneId) : Bool := s.dwellQueue.any fun d => d.lane = i

/-- R71: a request joins the tail of the dwell queue with the lane's current run number; a lane that already has one
queued gets no second. -/
def State.requestDwell (s : State) (i : LaneId) (p : Purpose) : State :=
  if s.dwellQueued i then s
  else State.grantDue { s with dwellQueue := s.dwellQueue ++ [Dwell.mk i p (s.lane i).run] }

/-! ### The grant rule (R72, R73) -/

/-- The dwell a unit holds; none when it is idle (R69). -/
def State.unit (s : State) (u : UnitId) : Option Dwell := s.units.get u

/-- Some unit is busy with a dwell on the lane. -/
def State.laneBusy (s : State) (i : LaneId) : Bool :=
  (indexes 4).any fun u => (s.unit u).any fun d => d.lane = i

/-- The lowest-numbered idle unit. -/
def State.idleUnit (s : State) : Option UnitId := (indexes 4).find? fun u => (s.unit u).isNone

/-- R72 step 1: the oldest grantable TRAIN request, or else the oldest grantable HEALTH request. -/
def State.grantable (s : State) : Option Dwell :=
  match s.dwellQueue.find? fun d => d.purpose = .train ∧ s.laneBusy d.lane = false with
  | some d => some d
  | none => s.dwellQueue.find? fun d => d.purpose = .health ∧ s.laneBusy d.lane = false

/-- R73: a TRAIN dwell begins at the current preset of the training record: the preset field and the receiver's
values follow it. A HEALTH dwell leaves the equalizer as it is. -/
def State.beginDwell (s : State) (d : Dwell) : State :=
  match d.purpose with
  | .health => s
  | .train =>
      s.modLane d.lane fun l =>
        match l.training with
        | none => l
        | some r => { l with preset := some r.current, applied := some (s.params.presets.get r.current) }

/-- R72 steps 1 to 3, once: none when no unit is idle or nothing is grantable. -/
def State.grantOne (s : State) : Option State :=
  match s.idleUnit, s.grantable with
  | some u, some d =>
      some ({ s with
        dwellQueue := s.dwellQueue.erase d
        units := s.units.set u (some d) }.beginDwell d)
  | _, _ => none

/-- R72: the steps repeat while a unit is idle and a request is grantable; four units bound the repetitions. -/
def State.grantUpTo : Nat → State → State
  | 0, s => s
  | n + 1, s =>
      match s.grantOne with
      | none => s
      | some s' => State.grantUpTo n s'

/-- R72: the grant rule. -/
def State.grant (s : State) : State := State.grantUpTo 4 s

/-! ### Training attempts (R82 to R84) -/

/-- R83: the start preset of an attempt. -/
def startPreset (p : Params) (l : Lane) (attempt : Nat) : PresetId :=
  if attempt = 1 ∧ p.startPolicy = .last then l.lastGood.getD p.startPreset else p.startPreset

/-- R84: the record at the start of an attempt. -/
def freshRecord (p : Params) (l : Lane) (attempt : Nat) : TrainRec :=
  let start := startPreset p l attempt
  { attempt := attempt, phase := .ascend, current := start, start := start, best := none, bestFom := none,
    misses := 0, lookBeyond := p.lookBeyond }

/-- R84: an attempt starts and makes its first TRAIN request. -/
def State.startAttempt (s : State) (i : LaneId) (attempt : Nat) : State :=
  (s.modLane i fun l => { l with training := some (freshRecord s.params l attempt) }).requestDwell i .train

/-- R82: an owned lane enters TRAINING and its run begins; the run number advances once for both (R2). -/
def State.startRun (s : State) (i : LaneId) : State := (s.moveLane i .training).startAttempt i 1

/-- R7, R82: a named lane is taken into a circuit in TRAINING and its run begins. -/
def State.takeNamed (s : State) (i : LaneId) (pl : Place) : State :=
  (s.takeLane i .training pl).startAttempt i 1

/-- R2, R76, R89: the start of a later attempt advances the run number by itself. -/
def State.restartAttempt (s : State) (i : LaneId) (attempt : Nat) : State :=
  ((s.modLane i fun l => { l with run := l.run + 1 }).cancelDwell i).startAttempt i attempt

/-! ### The search (R85 to R87) -/

/-- The figure of a dwell as the Training Engine reads it: NO_LOCK counts as 0 (R74, R85). -/
def figureOf : DwellOutcome → Byte
  | .fom f => f
  | .noLock => 0

/-- R85: a result scored against the record. -/
def TrainRec.score (r : TrainRec) (figure : Byte) : TrainRec :=
  match r.bestFom with
  | none => { r with best := some r.current, bestFom := some figure }
  | some b =>
      if b.toNat < figure.toNat then { r with best := some r.current, bestFom := some figure, misses := 0 }
      else { r with misses := r.misses + 1 }

/-- R88: CONFIRM begins at the best preset. -/
def TrainRec.toConfirm (r : TrainRec) : TrainRec :=
  { r with phase := .confirm, current := r.best.getD r.current }

/-- R86: after a scored ASCEND result, the next preset up, DESCEND, or CONFIRM. -/
def TrainRec.afterAscend (r : TrainRec) : TrainRec :=
  if r.misses = r.lookBeyond ∨ r.current = 11 then
    if r.best = some r.start ∧ r.start ≠ 0 then
      { r with phase := .descend, misses := 0, current := r.start - 1 }
    else r.toConfirm
  else { r with current := r.current + 1 }

/-- R87: after a scored DESCEND result, the next preset down, or CONFIRM. -/
def TrainRec.afterDescend (r : TrainRec) : TrainRec :=
  if r.misses = r.lookBeyond ∨ r.current = 0 then r.toConfirm else { r with current := r.current - 1 }

/-- R85 to R87: what a search result makes of the record. A CONFIRM result is no search result. -/
def TrainRec.search (r : TrainRec) (figure : Byte) : TrainRec :=
  match r.phase with
  | .ascend => (r.score figure).afterAscend
  | .descend => (r.score figure).afterDescend
  | .confirm => r

end Sys2Proof.Machine
end

