-- ==== Sys2Proof/Machine/Circuits.lean ====
section
/-! DEFINITION. Sys2Proof/Machine/Circuits.lean: the Circuit Table's shared work: matching tags, the UP decision,
beginning and completing closes, and the notices a circuit's end gives (R24, R39 to R43, R46). -/

namespace Sys2Proof.Machine

open Sys2Proof

/-- R24: the record a tag matches, with its slot. -/
def State.matchTag (s : State) (t : Tag) : Option (SlotId × Circuit) :=
  if t.side = s.side then
    match s.circuit t.slot with
    | some x => if x.role = .origin ∧ (s.slots.get t.slot).gen = t.gen then some (t.slot, x) else none
    | none => none
  else s.circuits.find? fun cx => cx.2.role = .answer ∧ cx.2.tag = t

/-- TRAINING, UP or REPAIRING (R44). -/
def Circuit.live (x : Circuit) : Bool := x.state = .training ∨ x.state = .up ∨ x.state = .repairing

/-- UP phase: the circuit has been UP and is not closing (R109). -/
def Circuit.upPhase (x : Circuit) : Bool := x.state = .up ∨ x.state = .repairing

/-- A notice for the near port of a circuit, where there is one. -/
def State.notifyOpt (s : State) (h : PortId) (n : Option Notice) : State :=
  match n with
  | none => s
  | some n => s.notify h n

/-! ### UP and REPAIRING -/

/-- R39: every position not dropped has an ACTIVE current lane and repair state NONE. -/
def State.allActive (s : State) (x : Circuit) : Bool :=
  x.positions.all fun q =>
    q.dropped || (q.repair == .none && q.current.any fun i => (s.lane i).state == .active)

/-- R39: the UP decision. -/
def State.upDecision (s : State) (c : SlotId) : State :=
  match s.circuit c with
  | none => s
  | some x =>
      if x.state = .training ∧ s.allActive x = true then
        (s.setCircuit c { x with state := .up, everUp := true }).notify x.near
          (.circuitUp c x.role x.reqTag x.width)
      else s

/-- R110, R112: a circuit that is UP becomes REPAIRING, and its near port is noticed. -/
def State.markRepairing (s : State) (c : SlotId) : State :=
  match s.circuit c with
  | none => s
  | some x =>
      if x.state = .up then (s.setCircuit c { x with state := .repairing }).notify x.near (.circuitRepairing c)
      else s

/-- R109, R112: a position of the circuit is in repair, or on the answering side awaits one. -/
def State.inRepair (s : State) (x : Circuit) : Bool :=
  match x.role with
  | .origin => x.positions.any fun q => q.repair != .none
  | .answer =>
      x.positions.any fun q =>
        q.repair == .replacing || q.current.any fun i => (s.lane i).state == .failing

/-- R119 step 4, R121 step 6: a REPAIRING circuit with no position in repair becomes UP; a TRAINING circuit makes the
UP decision. -/
def State.settle (s : State) (c : SlotId) : State :=
  match s.circuit c with
  | none => s
  | some x =>
      if x.state = .repairing ∧ s.inRepair x = false then
        (s.setCircuit c { x with state := .up }).notify x.near (.circuitRepaired c)
      else s.upDecision c

/-! ### Notices at the end of a circuit (R46) -/

/-- R46: the notice where this side sent the close reason. -/
def sentNotice (c : SlotId) (x : Circuit) (r : CloseReason) : Option Notice :=
  match x.everUp, x.role, r with
  | true, _, .hostClose => some (.circuitClosed c .hostClose)
  | true, _, .noSpare => some (.circuitClosed c .noSpare)
  | false, .origin, .training => x.reqTag.map fun t => .openFailed t .training
  | _, _, _ => none

/-- R46: the notice where the peer's CLOSE brought the reason. -/
def receivedNotice (c : SlotId) (x : Circuit) (r : CloseReason) : Option Notice :=
  match x.everUp, x.role, r with
  | true, _, .hostClose => some (.circuitClosed c .peerClose)
  | true, _, .hostGone => some (.circuitClosed c .peerHostGone)
  | true, .answer, .noSpare => some (.circuitClosed c .noSpare)
  | true, .answer, .training => some (.circuitClosed c .noSpare)
  | false, .origin, .hostClose => x.reqTag.map fun t => .openFailed t .peerClose
  | false, .origin, .hostGone => x.reqTag.map fun t => .openFailed t .peerHostGone
  | _, _, _ => none

/-- R48: the notice at trunk loss. -/
def lossNotice (c : SlotId) (x : Circuit) : Option Notice :=
  match x.everUp, x.role, x.state, x.closeReason with
  | true, _, _, _ => some (.circuitClosed c .trunkLost)
  | false, .origin, .training, _ => x.reqTag.map fun t => .openFailed t .trunkLost
  | false, .origin, .closing, some .training => x.reqTag.map fun t => .openFailed t .training
  | _, _, _, _ => none

/-! ### Closing -/

/-- R40, R109: a position of a closing circuit has no repair in course; it goes on naming its lanes. -/
def Position.endRepair (q : Position) : Position := { q with repair := .none, patience := none, attempts := 0 }

/-- R40: a close begins: the circuit becomes CLOSING, its lanes go to RELEASING, its positions stop seeking, and CLOSE
is sent. A circuit already in CLOSING goes on as it is. -/
def State.beginClose (s : State) (c : SlotId) (r : CloseReason) : State :=
  match s.circuit c with
  | none => s
  | some x =>
      if x.state = .closing then s
      else
        let s := x.lanes.foldl (fun s i => s.moveLane i .releasing) s
        let s := s.setCircuit c
          { x with state := .closing, closeReason := some r, positions := x.positions.map Position.endRepair }
        let s := { s with seeking := s.seeking.filter fun cp => decide (cp.1 ≠ c) }
        s.send (.close x.tag r)

/-- R8, R9, R15: where the lanes of a completed close join the pool. -/
def closeEnd (r : Option CloseReason) : PoolEnd :=
  match r with
  | some .withdrawn => .head
  | _ => .tail

/-- R41: a close completes: the lanes leave, the notice of R46 goes to the near port, the slot becomes VACANT. -/
def State.completeClose (s : State) (c : SlotId) : State :=
  match s.circuit c with
  | none => s
  | some x =>
      let s := s.leaveAll x.lanes false (closeEnd x.closeReason)
      let s := s.notifyOpt x.near (x.closeReason.bind (sentNotice c x))
      s.vacate c

/-- R42: CLOSE received ends a circuit at once: the lanes leave, CLOSED is sent, the notice of R46 for the received
reason is given, the slot becomes VACANT. -/
def State.endByPeer (s : State) (c : SlotId) (r : CloseReason) : State :=
  match s.circuit c with
  | none => s
  | some x =>
      let s := s.leaveAll x.lanes false .tail
      let s := s.send (.closed x.tag)
      let s := s.notifyOpt x.near (receivedNotice c x r)
      s.vacate c

end Sys2Proof.Machine
end

