-- ==== Sys2Proof/Machine/Repair.lean ====
section
/-! DEFINITION. Sys2Proof/Machine/Repair.lean: picks, exhaustion, narrowing, positions that lose their lanes, lanes
entering ACTIVE, switchover, and declaring a lane FAILING (R38, R104, R109 to R122). -/

namespace Sys2Proof.Machine

open Sys2Proof

/-! ### Exhaustion and narrowing (R120 to R122) -/

/-- R121 steps 2 to 6, R122: a position is dropped: its lanes leave, its host lane is released, the near port is
noticed if the circuit has been up, and the circuit's state is settled. -/
def State.dropPosition (s : State) (c : SlotId) (p : Nat) : State :=
  match s.position c p with
  | none => s
  | some q =>
      let s := s.modPosition c p fun q => { q.endRepair with dropped := true, current := none, replacement := none }
      let s := { s with seeking := s.seeking.filter fun cp => decide (cp ≠ (c, p)) }
      let s := s.leaveAll q.current.toList true .tail
      let s := s.leaveAll q.replacement.toList false .tail
      let s :=
        match s.circuit c with
        | none => s
        | some x => if x.everUp then s.notify x.near (.circuitNarrowed c x.width) else s
      s.settle c

/-- R120: a repair is exhausted: the position is narrowed away where the width allows it (R121), or the circuit begins
a close. -/
def State.exhaust (s : State) (c : SlotId) (p : Nat) : State :=
  match s.circuit c with
  | none => s
  | some x =>
      if x.minWidth ≤ x.width - 1 then (s.send (.amend x.tag (byteOf p) none)).dropPosition c p
      else s.beginClose c (if x.everUp then .noSpare else .training)

/-! ### Picks (R114, R115) -/

/-- R115: a position enters SEEKING and joins the tail of the seeking list. -/
def State.seek (s : State) (c : SlotId) (p : Nat) : State :=
  let s := s.modPosition c p fun q =>
    { q with repair := .seeking, replacement := none, patience := some s.params.repairPatience }
  { s with seeking := (s.seeking.filter fun cp => decide (cp ≠ (c, p))) ++ [(c, p)] }

/-- R114 step 2: the pool's head lane becomes the position's replacement lane and is proposed to the peer. -/
def State.propose (s : State) (c : SlotId) (p : Nat) (t : Tag) (i : LaneId) : State :=
  let s := s.takeLane i .claimed ⟨c, .replacement, p⟩
  let s := s.modPosition c p fun q =>
    { q with repair := .proposed, replacement := some i, attempts := q.attempts + 1, patience := none }
  s.send (.amend t (byteOf p) (some (byteOf i.val)))

/-- R114: a pick for a position of a circuit in TRAINING, UP or REPAIRING. -/
def State.pick (s : State) (c : SlotId) (p : Nat) : State :=
  match s.circuit c, s.position c p with
  | some x, some q =>
      if x.live = false then s
      else if 3 ≤ q.attempts then s.exhaust c p
      else
        match s.pool with
        | i :: _ => s.propose c p x.tag i
        | [] => s.seek c p
  | _, _ => s

/-- R110: a repair of a position in NONE begins: an UP circuit becomes REPAIRING, and a pick is made. -/
def State.startRepair (s : State) (c : SlotId) (p : Nat) : State :=
  match s.position c p with
  | none => s
  | some q => if q.repair = .none ∧ q.dropped = false then (s.markRepairing c).pick c p else s

/-! ### Positions that lose a lane before switchover -/

/-- R29, R38, R113, R117, R118: a position has lost a lane that was claimed, in training, QUALIFIED, or ACTIVE in the
setup phase. At the origin a pick follows, unless the circuit is PROPOSED or the reply to an AMEND is awaited. At the
answering side the position waits; in the setup phase a failure of this side (`tell`) sends LANE_FAIL, unless the
position holds an accepted spare (R111, R118; log entry 13). -/
def State.positionLost (s : State) (c : SlotId) (p : Nat) (tell : Option FailReason) : State :=
  match s.circuit c, s.position c p with
  | some x, some q =>
      match x.role with
      | .origin => if x.state = .proposed ∨ q.repair = .proposed then s else s.pick c p
      | .answer =>
          match tell with
          | some r =>
              if x.state = .training ∧ q.repair = .none then s.send (.laneFail x.tag (byteOf p) r) else s
          | none => s
  | _, _ => s

/-- A lane in CLAIMED, TRAINING or QUALIFIED whose fence has just been set leaves its circuit as QUARANTINED, and its
position has lost it (R13, R17, R37, R90). -/
def State.expel (s : State) (i : LaneId) (tell : Option FailReason) : State :=
  match (s.lane i).place with
  | none => s.quarantine i
  | some pl => ((s.unname i).quarantine i).positionLost pl.slot pl.position tell

/-! ### Lanes entering ACTIVE (R10, R38, R39, R119) -/

/-- R119: the replacement lane, now ACTIVE, becomes the position's current lane; the old lane leaves. -/
def State.switchover (s : State) (c : SlotId) (p : Nat) (i : LaneId) : State :=
  match s.position c p with
  | none => s
  | some q =>
      let s := s.modLane i fun l => { l with place := l.place.map fun pl => { pl with role := .current } }
      let s := s.modPosition c p fun q => { q.endRepair with current := some i, replacement := none }
      let s := s.leaveAll q.current.toList true .tail
      let s := s.modCircuit c fun x => { x with repairCount := satSucc 255 x.repairCount }
      s.settle c

/-- R119, last paragraph: a setup-phase repair ends when its lane enters ACTIVE. -/
def Position.setupRepairDone (q : Position) : Position := if q.repair = .replacing then q.endRepair else q

/-- R4, R10: a lane enters ACTIVE: a current lane joins the UP decision, a replacement causes a switchover. -/
def State.activate (s : State) (i : LaneId) : State :=
  let s := s.moveLane i .active
  match (s.lane i).place with
  | none => s
  | some pl =>
      match pl.role with
      | .current => (s.modPosition pl.slot pl.position Position.setupRepairDone).upDecision pl.slot
      | .replacement => s.switchover pl.slot pl.position i

/-! ### Entering FAILING (R104, R112) -/

/-- R104 step 3: what the Circuit Table does when the current lane of a position enters FAILING. -/
def State.laneFailed (s : State) (i : LaneId) (r : FailReason) (pl : Place) : State :=
  match s.circuit pl.slot, s.position pl.slot pl.position with
  | some x, some q =>
      if x.state = .training then
        ((s.unname i).leaveAll [i] false .tail).positionLost pl.slot pl.position (some r)
      else if x.upPhase = true then
        match x.role with
        | .origin => s.startRepair pl.slot pl.position
        | .answer =>
            if q.repair = .none then (s.send (.laneFail x.tag (byteOf pl.position) r)).markRepairing pl.slot else s
      else s
  | _, _ => s

/-- R104: an ACTIVE lane is declared FAILING. `figure` is the figure that reached the strike limit, 0 for the other
causes. -/
def State.declareFailing (s : State) (i : LaneId) (r : FailReason) (figure : Byte) : State :=
  let s := (s.modLane i fun l => { l with failure := some r }).moveLane i .failing
  let s := s.log .laneFailing (some i) (s.ownerTag i) (detail2 (failByte r) figure)
  match (s.lane i).place with
  | none => s
  | some pl => s.laneFailed i r pl

end Sys2Proof.Machine
end

