-- ==== Sys2Proof/Machine/Admission.lean ====
section
/-! DEFINITION. Sys2Proof/Machine/Admission.lean: the Admission Unit: quotas, eligibility, the service scan, serving an
entry, the outcomes of proposals, and patience (R50 to R68). -/

namespace Sys2Proof.Machine

open Sys2Proof

/-! ### Quotas (R52, R53) -/

/-- R52: the trunk lanes owned by non-vacant circuits with near port `h`. -/
def State.holdings (s : State) (h : PortId) : Nat :=
  ((indexes 24).filter fun i =>
    ((s.lane i).place.bind fun pl => s.circuit pl.slot).any fun x => x.near = h).length

/-- R52: the unmet floor of a port. -/
def State.unmetFloor (s : State) (h : PortId) : Nat := s.params.floors.get h - s.holdings h

/-- R52: the sum of the unmet floors of the other ports. -/
def State.protectedLanes (s : State) (h : PortId) : Nat :=
  (((indexes 6).filter fun g => decide (g ≠ h)).map s.unmetFloor).sum

/-- R52: the lanes a port may use. -/
def State.usable (s : State) (h : PortId) : Nat := s.pool.length - s.protectedLanes h

/-- R53: the grant width of an entry. -/
def State.grantWidth (s : State) (e : Entry) : Nat :=
  let quota :=
    match e.cls with
    | .shared => s.params.ceilings.get e.port
    | .reserved => s.params.floors.get e.port
  min e.reqWidth (min (quota - s.holdings e.port) (s.usable e.port))

/-- R53: an entry is admissible. -/
def State.admissible (s : State) (e : Entry) : Bool :=
  s.trunk = .up ∧ s.vacantSlot.isSome = true ∧ e.minWidth ≤ s.grantWidth e

/-- R54: the entry at place `n` is eligible: none nearer the head joins the same pair of ports. -/
def State.eligible (s : State) (n : Nat) (e : Entry) : Bool :=
  (s.queue.take n).all fun o => decide (¬ (o.port = e.port ∧ o.far = e.far))

/-! ### Serving an entry (R28, R60) -/

/-- R28: the positions of a new origin circuit, from host lanes and trunk lanes in order. -/
def newPositions (hosts : List HostLane) (lanes : List LaneId) : List Position :=
  (hosts.zip lanes).map fun hl => { hostLane := hl.1, current := some hl.2 }

/-- The lanes of a list with their position numbers. -/
def numbered (lanes : List LaneId) : List (Nat × LaneId) := (List.range lanes.length).zip lanes

/-- R28, R60: the entry at place `n` is served into slot `c` with grant width `w`. -/
def State.serveInto (s : State) (n : Nat) (e : Entry) (c : SlotId) (w : Nat) : State :=
  let lanes := s.pool.take w
  let tag : Tag := ⟨s.side, c, (s.slots.get c).gen⟩
  let s := s.setCircuit c
    { state := .proposed, role := .origin, tag := tag, answerSlot := none, near := e.port, far := e.far, cls := e.cls,
      reqWidth := e.reqWidth, minWidth := e.minWidth, reqTag := some e.tag,
      positions := newPositions (e.reserved.take w) lanes, repairCount := 0, closeReason := none, everUp := false }
  let s := (numbered lanes).foldl (fun s pl => s.takeLane pl.2 .claimed ⟨c, .current, pl.1⟩) s
  let s := { s with queue := s.queue.set n { e with slot := some c, reserved := [] } }
  s.send (.setup tag (byteOf e.far.val) (byteOf e.port.val) e.cls (byteOf e.reqWidth) (byteOf e.minWidth)
    ((numbered lanes).map fun pl => (byteOf pl.1, byteOf pl.2.val)))

/-- R59: the turn of the entry at place `n` in the pass of a class. -/
def State.scanTurn (cls : Cls) (s : State) (n : Nat) : State :=
  match s.queue[n]?, s.vacantSlot with
  | some e, some c =>
      if e.cls = cls ∧ e.slot = none ∧ s.eligible n e = true ∧ s.admissible e = true then
        s.serveInto n e c (s.grantWidth e)
      else s
  | _, _ => s

/-- R59: a service scan: the RESERVED pass, then the SHARED pass, each from head to tail. -/
def State.scan (s : State) : State :=
  let places := List.range s.queue.length
  places.foldl (State.scanTurn .shared) (places.foldl (State.scanTurn .reserved) s)

/-! ### Entries leaving or returning (R61 to R66, R68) -/

/-- The PROPOSED entry of a circuit slot (R51). -/
def State.entryOfSlot (s : State) (c : SlotId) : Option Entry := s.queue.find? fun e => e.slot = some c

/-- R58: entries leave the queue, which triggers a scan. -/
def State.dropEntries (s : State) (leaves : Entry → Bool) : State :=
  if s.queue.any leaves then State.scanDue { s with queue := s.queue.filter fun e => !leaves e } else s

/-- The PROPOSED entry of a slot leaves the queue (R62, R63, R64). -/
def State.dropEntryOfSlot (s : State) (c : SlotId) : State := s.dropEntries fun e => e.slot = some c

/-- R65 steps 2 and 3, R66: an entry that has lost its circuit returns to WAITING with host lanes reserved afresh, or
leaves with HOST_LANES_SHORT. -/
def State.returnEntry (s : State) (e : Entry) : State :=
  let free := s.freeHostLanes e.port
  if e.reqWidth ≤ free.length then
    State.scanDue
      { s with
        queue := s.queue.map fun o =>
          if o.port = e.port ∧ o.tag = e.tag then
            { e with slot := none, reserved := free.take e.reqWidth }
          else o }
  else
    (s.dropEntries fun o => o.port = e.port ∧ o.tag = e.tag).notify e.port (.openFailed e.tag .hostLanesShort)

/-- R65: a lane refusal of a PROPOSED entry: the conflict counts; the third removes the entry with CONFLICT. -/
def State.entryConflict (s : State) (e : Entry) : State :=
  let e := { e with conflicts := e.conflicts + 1 }
  if 3 ≤ e.conflicts then
    (s.dropEntries fun o => o.port = e.port ∧ o.tag = e.tag).notify e.port (.openFailed e.tag .conflict)
  else s.returnEntry e

/-- R66: at trunk loss every PROPOSED entry, in queue order, has lost its circuit. -/
def State.queueAtLoss (s : State) : State :=
  (s.queue.filter fun e => e.slot.isSome).foldl State.returnEntry s

/-- R61: patience at a sweep tick: each WAITING entry counts one less. -/
def Entry.tick (e : Entry) : Entry := if e.slot = none then { e with patience := e.patience - 1 } else e

/-- R61: an entry that has run out of patience while WAITING. -/
def Entry.expired (e : Entry) : Bool := e.slot = none ∧ e.patience = 0

/-- R61: patience is counted, and expired entries leave in queue order with OPEN_EXPIRED. -/
def State.countPatience (s : State) : State :=
  let s := { s with queue := s.queue.map Entry.tick }
  let gone := s.queue.filter Entry.expired
  gone.foldl (fun s e => s.notify e.port (.openExpired e.tag)) (s.dropEntries Entry.expired)

end Sys2Proof.Machine
end

