-- ==== Sys2Proof/Machine/Trunk.lean ====
section
/-! DEFINITION. Sys2Proof/Machine/Trunk.lean: JOINING periods, the trunk going UP and LOST with every block's part in
it, and the end of an event (R19, R20, R48, R66, R78, R130, R139 to R146). -/

namespace Sys2Proof.Machine

open Sys2Proof

/-! ### Joining (R139) -/

/-- Whether a waiting frame is a JOIN. -/
def isJoin (f : Frame) : Bool :=
  match f.body with
  | .join _ => true
  | _ => false

/-- R139: a JOINING period begins; the enable mask for the join is fixed to the pending one. -/
def State.beginJoining (s : State) : State :=
  { s with
    trunk := .joining
    peerHeard := false
    clash := false
    peerEnable := none
    peerFences := none
    fenceChanges := []
    joinSent := false
    txFrames := s.txFrames.filter fun f => !isJoin f
    joinMask := some s.params.enableMask }

/-- R139: the mask of this side's local fences as they stand. -/
def State.localFences (s : State) : Mask := maskWhere fun i => (s.lane i).localFence

/-- R139, R141, R143: one JOIN is handed to the transmitter; it carries seq 0 (R126). -/
def State.sendJoin (s : State) (ready up : Bool) : State :=
  s.hand 0 (.join ⟨s.side, ready, up, s.joinMask.getD 0, s.localFences⟩)

/-- R139: the JOIN of a control tick in JOINING. -/
def State.joinTick (s : State) : State := { s.sendJoin s.peerHeard false with joinSent := true }

/-! ### The trunk goes UP (R19, R141, R142) -/

/-- R19: the lanes enabled by both sides. -/
def State.enabledMask (s : State) : Mask := s.joinMask.getD 0 &&& s.peerEnable.getD 0

/-- R19: the order in which a side lists the lanes of a rebuilt pool. -/
def sideOrder : Side → List LaneId
  | .a => indexes 24
  | .b => (indexes 24).reverse

/-- R19: a lane rebuilt from the masks: its peer fence follows the peer's mask; an enabled lane becomes QUARANTINED
with a fence, FREE without, and any other stays as it is. -/
def rebuiltLane (enabled fenced : Bool) (l : Lane) : Lane :=
  let l := { l with peerFence := fenced }
  if enabled then
    if l.localFence || fenced then l.enter .quarantined else l.enter .free
  else l

/-- R19: the Lane Table's rebuild at trunk UP; the pool is listed in the side's own order and reported as growth. -/
def State.rebuildLanes (s : State) : State :=
  let fences := s.peerFences.getD 0
  let s := (indexes 24).foldl
    (fun s i => (s.modLane i (rebuiltLane (s.enabledMask.getLsbD i.val) (fences.getLsbD i.val))).cancelDwell i) s
  State.poolGrown { s with pool := (sideOrder s.side).filter fun i => (s.lane i).state == .free }

/-- R142: the message that tells the peer a listed lane's local fence. -/
def State.sendFenceChange (s : State) (i : LaneId) : State :=
  if (s.lane i).localFence then s.send (.fence (byteOf i.val) (.failure .host)) else s.send (.unfence (byteOf i.val))

/-- R142: the listed fence changes are sent in ascending lane order, and the list is emptied. -/
def State.sendFenceChanges (s : State) : State :=
  let listed := (indexes 24).filter fun i => decide (i ∈ s.fenceChanges)
  { listed.foldl State.sendFenceChange s with fenceChanges := [] }

/-- R169: the number of lanes enabled by both sides. -/
def State.enabledCount (s : State) : Nat := (lanesOf s.enabledMask).length

/-- R141 step 1: the trunk state, the session count and the delivery state take their values at UP (R129, R138). -/
def State.openSession (s : State) : State :=
  { s with
    trunk := .up
    sessions := s.sessions + 1
    sendQueue := []
    outstanding := []
    nextSeq := 0
    expectedSeq := 0
    mark := false
    retryCount := 0
    silenceCount := 0 }

/-- R141: the trunk goes UP. The scan that step 5 names follows from the growth reported (R58). -/
def State.goUp (s : State) : State :=
  let s := s.openSession.sendJoin true true
  let s := s.log .trunkUp none none (BitVec.ofNat 16 s.enabledCount)
  (s.sendFenceChanges.rebuildLanes).notifyAll .trunkUp

/-! ### The trunk goes LOST (R144) -/

/-- The last loss reason's code (R157). -/
def LossReason.code : LossReason → Byte
  | .tccRetry => 1
  | .peerSilent => 2
  | .peerRestart => 3
  | .restart => 4
  | .sendOverflow => 5
  | .sideClash => 6

/-- R144 steps 1 and 2: the trunk state and reason, and the delivery state at LOST (R129); waiting frames are dropped
and a frame being sent is cut off. Whether a part of a frame has arrived is a free value (log entry 18), but in the event
of a received frame, where the line has just fallen idle (R127). -/
def State.closeSession (s : State) (r : LossReason) : State :=
  { s with
    trunk := .lost
    lastLoss := some r
    sendQueue := []
    outstanding := []
    mark := false
    retryCount := 0
    silenceCount := 0
    sentSinceTick := false
    txFrames := []
    sending := none
    partFrame := !s.scratch.received && Config.partAtLoss s.losses
    losses := s.losses + 1 }

/-- R20: a lane in FAILING, or in RELEASING with a failure reason, has its local fence set with that reason. -/
def State.fenceAtLoss (s : State) (i : LaneId) : State :=
  if (s.lane i).state = .failing ∨ (s.lane i).state = .releasing then
    match (s.lane i).failure with
    | some r => s.setLocalFence i (s.ownerTag i) (.failure r)
    | none => s
  else s

/-- R20: a lane after trunk LOST. The values in the receiver stay: they change at a TRAIN grant and at a success alone
(R73, R81). -/
def Lane.atLoss (l : Lane) : Lane :=
  let l := if l.state = .offline then l else l.enter .offline
  { l with
    place := none
    training := none
    preset := none
    fom := none
    failure := none
    strikes := 0
    peerTrained := false
    peerFence := false }

/-- R20, R78: the Lane Table's cleanup: fences first, then every lane OFFLINE; the pool and the dwell queue empty. -/
def State.lanesAtLoss (s : State) : State :=
  let s := (indexes 24).foldl State.fenceAtLoss s
  { s with lanes := s.lanes.map Lane.atLoss, pool := [], dwellQueue := [] }

/-- R48: a circuit at trunk loss: its notice, and its slot VACANT. -/
def State.circuitAtLoss (s : State) (c : SlotId) : State :=
  match s.circuit c with
  | none => s
  | some x => (s.notifyOpt x.near (lossNotice c x)).vacate c

/-- R144: the trunk goes LOST: the TCC Controller's part, then the Lane Table (R20), the Circuit Table (R48), the
Admission Unit (R66), the Dwell Scheduler (R78), and the seeking list (R123). -/
def State.goLost (s : State) (r : LossReason) : State :=
  let s := s.closeSession r
  let s := s.log .trunkLost none none (BitVec.zeroExtend 16 r.code)
  let s := (s.notifyAll (.trunkLost r)).lanesAtLoss
  let s := (indexes 16).foldl State.circuitAtLoss s
  { s.queueAtLoss with seeking := [] }

/-! ### The end of an event -/

/-- R115: SEEKING positions are served from the head of the list while it and the pool last. -/
def State.serveSeeking : Nat → State → State
  | 0, s => s
  | n + 1, s =>
      match s.seeking, s.pool with
      | (c, p) :: rest, _ :: _ =>
          State.serveSeeking n
            ((({ s with seeking := rest }).modPosition c p fun q => { q with patience := none }).pick c p)
      | _, _ => s

/-- R9: the pool's growth is reported: SEEKING positions are served, and a scan is due. -/
def State.reportGrowth (s : State) : State :=
  if s.scratch.grown then
    (State.serveSeeking s.seeking.length { s with scratch := { s.scratch with grown := false } }).scanDue
  else s

/-- R130: a loss that a full send queue marked takes effect. -/
def State.overflowLoss (s : State) : State :=
  if s.scratch.overflow = true ∧ s.trunk = .up then s.goLost .sendOverflow else s

/-- The end of an event: growth is reported, one scan runs if it is due (R58), the grant rule runs if it is due (R72),
and a marked loss takes effect (R130); the marks are clear afterwards. -/
def State.finish (s : State) : State :=
  let s := s.reportGrowth
  let s := if s.scratch.scan then s.scan else s
  let s := if s.scratch.grant then s.grant else s
  { s.overflowLoss with scratch := {} }

end Sys2Proof.Machine
end

