-- ==== Sys2Proof/Machine/Operands.lean ====
section
/-! DEFINITION. Sys2Proof/Machine/Operands.lean: the operand forms of the host side: request frames, parameter ids and
values, the configuration image, and the byte layouts of replies, notices and fault log entries (R152 to R159, R170,
R175 to R177). -/

namespace Sys2Proof.Machine

open Sys2Proof

/-! ### Request frames (R152) -/

/-- The kind a code stands for. -/
def reqKindOf (b : Byte) : Option ReqKind :=
  match b.toNat with
  | 0x01 => some .openCircuit
  | 0x02 => some .close
  | 0x03 => some .withdraw
  | 0x04 => some .circuitStatus
  | 0x05 => some .laneStatus
  | 0x06 => some .trunkStatus
  | 0x07 => some .readLog
  | 0x08 => some .readParam
  | 0x09 => some .writeParam
  | 0x0A => some .fenceLane
  | 0x0B => some .unfenceLane
  | 0x0C => some .restartTrunk
  | _ => none

/-- R152: the length byte a kind requires. -/
def ReqKind.length : ReqKind → Nat
  | .openCircuit => 7
  | .close => 3
  | .withdraw => 3
  | .circuitStatus => 3
  | .laneStatus => 3
  | .trunkStatus => 2
  | .readLog => 3
  | .readParam => 3
  | .writeParam => 6
  | .fenceLane => 3
  | .unfenceLane => 3
  | .restartTrunk => 2

/-- R152: the kinds marked steering only. -/
def ReqKind.steeringOnly : ReqKind → Bool
  | .writeParam => true
  | .fenceLane => true
  | .unfenceLane => true
  | .restartTrunk => true
  | .openCircuit => false
  | .close => false
  | .withdraw => false
  | .circuitStatus => false
  | .laneStatus => false
  | .trunkStatus => false
  | .readLog => false
  | .readParam => false

/-- A complete request frame: length byte, kind byte, request tag, parameter bytes up to the length (R151, R152). -/
structure ReqFrame where
  length : Nat
  kind : Byte
  tag : Byte
  params : List Byte
  deriving DecidableEq, Repr

/-- R151: a frame is complete when the length byte and at least as many further bytes as it names have been shifted
in, and the length is at least 2; bytes beyond are ignored. -/
def completeFrame (bytes : List Byte) : Option ReqFrame :=
  match bytes with
  | len :: kind :: tag :: rest =>
      if 2 ≤ len.toNat ∧ len.toNat ≤ rest.length + 2 then
        some ⟨len.toNat, kind, tag, rest.take (len.toNat - 2)⟩
      else none
  | _ => none

/-! ### Parameters (R175, R176) -/

/-- The parameters by name. -/
inductive ParamId where
  | enableMask
  | sweepInterval
  | controlTick
  | qualify
  | hold
  | strikeLimit
  | lookBeyond
  | trainAttempts
  | startPreset
  | startPolicy
  | release
  | retireLimit
  | repairPatience
  | retryLimit
  | silenceLimit
  | floor (h : PortId)
  | ceiling (h : PortId)
  | preset (i : PresetId)
  deriving DecidableEq, Repr

/-- R175: the parameter an id byte names; none for an id not in the table. -/
def paramOf (id : Byte) : Option ParamId :=
  let n := id.toNat
  if n = 0x01 then some .enableMask
  else if n = 0x02 then some .sweepInterval
  else if n = 0x03 then some .controlTick
  else if n = 0x04 then some .qualify
  else if n = 0x05 then some .hold
  else if n = 0x06 then some .strikeLimit
  else if n = 0x07 then some .lookBeyond
  else if n = 0x08 then some .trainAttempts
  else if n = 0x09 then some .startPreset
  else if n = 0x0A then some .startPolicy
  else if n = 0x0B then some .release
  else if n = 0x0C then some .retireLimit
  else if n = 0x0D then some .repairPatience
  else if n = 0x0E then some .retryLimit
  else if n = 0x0F then some .silenceLimit
  else if 0x10 ≤ n ∧ n ≤ 0x15 then some (.floor (Fin.ofNat 6 (n - 0x10)))
  else if 0x18 ≤ n ∧ n ≤ 0x1D then some (.ceiling (Fin.ofNat 6 (n - 0x18)))
  else if 0x20 ≤ n ∧ n ≤ 0x2B then some (.preset (Fin.ofNat 12 (n - 0x20)))
  else none

/-- R175: the smallest and the largest number a numeric parameter may take by its own range. -/
def ParamId.range : ParamId → Nat × Nat
  | .enableMask => (0, 0xFFFFFF)
  | .sweepInterval => (5, 250)
  | .controlTick => (1, 20)
  | .qualify => (1, 255)
  | .hold => (0, 255)
  | .strikeLimit => (1, 7)
  | .lookBeyond => (1, 6)
  | .trainAttempts => (1, 3)
  | .startPreset => (0, 11)
  | .startPolicy => (0, 1)
  | .release => (0, 250)
  | .retireLimit => (1, 15)
  | .repairPatience => (1, 60)
  | .retryLimit => (1, 8)
  | .silenceLimit => (2, 32)
  | .floor _ => (0, 24)
  | .ceiling _ => (1, 24)
  | .preset _ => (0, 0xFFFFFF)

/-- R176: a tap byte is 0x00 to 0x07 or 0xF8 to 0xFF: −8 to 7 in two's complement. -/
def tapInRange (b : Byte) : Bool := decide (-8 ≤ b.toInt ∧ b.toInt ≤ 7)

/-- R176: the entry three bytes stand for. -/
def presetOfMask (v : Mask) : PresetEntry :=
  ⟨(v.extractLsb' 16 8).toNat, (v.extractLsb' 8 8).toInt, (v.extractLsb' 0 8).toInt⟩

/-- R176: an entry as a three-byte value. -/
def PresetEntry.mask (e : PresetEntry) : Mask :=
  maskOf (byteOf e.boost) (BitVec.ofInt 8 e.preTap) (BitVec.ofInt 8 e.postTap)

/-- R175, R176: a three-byte value lies in the parameter's own range. -/
def ParamId.inRange (id : ParamId) (v : Mask) : Bool :=
  match id with
  | .preset _ =>
      decide ((v.extractLsb' 16 8).toNat ≤ 31) && tapInRange (v.extractLsb' 8 8) && tapInRange (v.extractLsb' 0 8)
  | _ => decide (id.range.1 ≤ v.toNat ∧ v.toNat ≤ id.range.2)

/-- R181: the live value of a parameter as three bytes. -/
def Params.read (p : Params) : ParamId → Mask
  | .enableMask => p.enableMask
  | .sweepInterval => BitVec.ofNat 24 p.sweepInterval
  | .controlTick => BitVec.ofNat 24 p.controlTick
  | .qualify => BitVec.ofNat 24 p.qualify
  | .hold => BitVec.ofNat 24 p.hold
  | .strikeLimit => BitVec.ofNat 24 p.strikeLimit
  | .lookBeyond => BitVec.ofNat 24 p.lookBeyond
  | .trainAttempts => BitVec.ofNat 24 p.trainAttempts
  | .startPreset => BitVec.ofNat 24 p.startPreset.val
  | .startPolicy => match p.startPolicy with | .fixed => 0 | .last => 1
  | .release => BitVec.ofNat 24 p.release
  | .retireLimit => BitVec.ofNat 24 p.retireLimit
  | .repairPatience => BitVec.ofNat 24 p.repairPatience
  | .retryLimit => BitVec.ofNat 24 p.retryLimit
  | .silenceLimit => BitVec.ofNat 24 p.silenceLimit
  | .floor h => BitVec.ofNat 24 (p.floors.get h)
  | .ceiling h => BitVec.ofNat 24 (p.ceilings.get h)
  | .preset i => (p.presets.get i).mask

/-- The parameters with one set to a three-byte value. -/
def Params.write (p : Params) (id : ParamId) (v : Mask) : Params :=
  match id with
  | .enableMask => { p with enableMask := v }
  | .sweepInterval => { p with sweepInterval := v.toNat }
  | .controlTick => { p with controlTick := v.toNat }
  | .qualify => { p with qualify := v.toNat }
  | .hold => { p with hold := v.toNat }
  | .strikeLimit => { p with strikeLimit := v.toNat }
  | .lookBeyond => { p with lookBeyond := v.toNat }
  | .trainAttempts => { p with trainAttempts := v.toNat }
  | .startPreset => { p with startPreset := Fin.ofNat 12 v.toNat }
  | .startPolicy => { p with startPolicy := if v = 1 then .last else .fixed }
  | .release => { p with release := v.toNat }
  | .retireLimit => { p with retireLimit := v.toNat }
  | .repairPatience => { p with repairPatience := v.toNat }
  | .retryLimit => { p with retryLimit := v.toNat }
  | .silenceLimit => { p with silenceLimit := v.toNat }
  | .floor h => { p with floors := p.floors.set h v.toNat }
  | .ceiling h => { p with ceilings := p.ceilings.set h v.toNat }
  | .preset i => { p with presets := p.presets.set i (presetOfMask v) }

/-- The sum of the six floors (R175). -/
def Params.floorSum (p : Params) : Nat := ((indexes 6).map p.floors.get).sum

/-- R175: the three limits that join parameters together. -/
def Params.jointOk (p : Params) : Bool :=
  decide (p.hold ≤ p.qualify)
    && (indexes 6).all (fun h => decide (p.floors.get h ≤ p.ceilings.get h))
    && decide (p.floorSum ≤ (lanesOf p.enableMask).length)

/-! ### Presence bytes and records as bytes (R157, R170) -/

/-- R157: an optional one-byte field: presence, then the value or 0x00. -/
def optByte (v : Option Byte) : List Byte :=
  match v with
  | none => [0, 0]
  | some b => [1, b]

/-- A flag as 0 or 1. -/
def boolByte (b : Bool) : Byte := if b then 1 else 0

/-- R157: an optional tag: presence, side, slot and generation. -/
def optTag (t : Option Tag) : List Byte :=
  match t with
  | none => [0, 0, 0]
  | some t => 1 :: tagBytes t

/-- R157: circuit state codes; VACANT is 0. -/
def circuitStateByte : CircuitState → Byte
  | .proposed => 1
  | .training => 2
  | .up => 3
  | .repairing => 4
  | .closing => 5

/-- R157: circuit role codes. -/
def circuitRoleByte : CircuitRole → Byte
  | .origin => 0
  | .answer => 1

/-- R157: repair state codes. -/
def repairByte : RepairState → Byte
  | .none => 0
  | .seeking => 1
  | .proposed => 2
  | .replacing => 3

/-- R157: lane state codes. -/
def laneStateByte : LaneState → Byte
  | .offline => 0
  | .free => 1
  | .claimed => 2
  | .training => 3
  | .qualified => 4
  | .active => 5
  | .failing => 6
  | .releasing => 7
  | .quarantined => 8

/-- R157: lane role codes. -/
def laneRoleByte : LaneRole → Byte
  | .current => 0
  | .replacement => 1

/-- R157: training phase codes. -/
def phaseByte : Phase → Byte
  | .ascend => 0
  | .descend => 1
  | .confirm => 2

/-- R157: trunk state codes. -/
def trunkByte : TrunkState → Byte
  | .down => 0
  | .joining => 1
  | .up => 2
  | .lost => 3

/-- R157: a position entry of CIRCUIT_STATUS, 10 bytes. -/
def Position.bytes (q : Position) : List Byte :=
  [byteOf q.hostLane.val] ++ optByte (q.current.map fun i => byteOf i.val) ++ [repairByte q.repair]
    ++ optByte (q.replacement.map fun i => byteOf i.val) ++ [byteOf q.attempts] ++ optByte (q.patience.map byteOf)
    ++ [boolByte q.dropped]

/-- R157: CIRCUIT_STATUS results for a slot that is not VACANT, 20 + 10n bytes. -/
def Circuit.bytes (g : Gen) (x : Circuit) : List Byte :=
  [circuitStateByte x.state, g.zeroExtend 8, circuitRoleByte x.role] ++ tagBytes x.tag
    ++ optByte (x.answerSlot.map fun c => byteOf c.val)
    ++ [byteOf x.near.val, byteOf x.far.val, clsByte x.cls, byteOf x.reqWidth, byteOf x.minWidth] ++ optByte x.reqTag
    ++ [byteOf x.width, byteOf x.repairCount] ++ optByte (x.closeReason.map closeByte)
    ++ [boolByte x.everUp, byteOf x.positions.length] ++ x.positions.flatMap Position.bytes

/-- R49, R157: CIRCUIT_STATUS results; a VACANT slot gives its state and generation alone. -/
def Slot.bytes (sl : Slot) : List Byte :=
  match sl.circuit with
  | none => [0, sl.gen.zeroExtend 8]
  | some x => x.bytes sl.gen

/-- R157: the training record of LANE_STATUS, 10 bytes with its presence byte. -/
def trainingBytes (r : Option TrainRec) : List Byte :=
  match r with
  | none => List.replicate 10 0
  | some r =>
      [1, byteOf r.attempt, phaseByte r.phase, byteOf r.current.val, byteOf r.start.val]
        ++ optByte (r.best.map fun i => byteOf i.val) ++ optByte r.bestFom ++ [byteOf r.misses]

/-- R21, R157: LANE_STATUS results, 36 bytes; `t` is the owner's circuit tag. -/
def Lane.bytes (l : Lane) (t : Option Tag) : List Byte :=
  [laneStateByte l.state] ++ optByte (l.place.map fun pl => byteOf pl.slot.val)
    ++ optByte (l.place.map fun pl => laneRoleByte pl.role) ++ optByte (l.place.map fun pl => byteOf pl.position)
    ++ optTag t ++ optByte (l.preset.map fun i => byteOf i.val) ++ optByte (l.lastGood.map fun i => byteOf i.val)
    ++ optByte l.fom ++ [byteOf l.strikes, bitAt 0 l.localFence ||| bitAt 1 l.peerFence]
    ++ optByte (l.failure.map failByte) ++ optByte (l.age.map byteOf)
    ++ [byteOf l.failCount, byteOf l.missed, l.run, boolByte l.peerTrained] ++ trainingBytes l.training

/-- R157: the enable mask fixed for the current join, present while UP or JOINING. -/
def State.shownJoinMask (s : State) : Option Mask :=
  if s.trunk = .up ∨ s.trunk = .joining then s.joinMask else none

/-- R80: the number of busy measurement units. -/
def State.busyUnits (s : State) : Nat := ((indexes 4).filter fun u => (s.unit u).isSome).length

/-- R147, R157: TRUNK_STATUS results, 21 bytes. -/
def State.trunkBytes (s : State) : List Byte :=
  [trunkByte s.trunk] ++ optByte (s.lastLoss.map LossReason.code) ++ halfBytes s.sessions
    ++ halfBytes (BitVec.ofNat 16 s.badFrames) ++ halfBytes (BitVec.ofNat 16 s.retransmissions)
    ++ [byteOf s.sendQueue.length, byteOf s.outstanding.length] ++ maskBytes s.params.enableMask
    ++ (match s.shownJoinMask with | none => [0, 0, 0, 0] | some m => 1 :: maskBytes m)
    ++ [byteOf s.pool.length, byteOf s.busyUnits, byteOf s.dwellQueue.length]

/-- R169: fault log kind codes. -/
def LogKind.code : LogKind → Byte
  | .configLoaded => 0x01
  | .configDefaulted => 0x02
  | .paramDefaulted => 0x03
  | .trunkUp => 0x04
  | .trunkLost => 0x05
  | .joinClash => 0x06
  | .tccRetransmit => 0x07
  | .laneTrainFail => 0x08
  | .laneFailing => 0x09
  | .laneFenced => 0x0A
  | .laneReleased => 0x0B
  | .laneRetired => 0x0C
  | .sweepMissed => 0x0D

/-- R170: a fault log entry, 14 bytes. -/
def LogEntry.bytes (e : LogEntry) : List Byte :=
  halfBytes e.seq ++ halfBytes e.sweeps ++ halfBytes e.sessions ++ [e.kind.code]
    ++ optByte (e.lane.map fun i => byteOf i.val) ++ optTag e.tag ++ halfBytes e.detail

/-! ### Replies and notices as frames (R152, R154, R159) -/

/-- R154: status codes. -/
def Status.code : Status → Byte
  | .ok => 0x00
  | .queued => 0x01
  | .proceeding => 0x02
  | .notReady => 0x03
  | .badRequest => 0x04
  | .notPermitted => 0x05
  | .trunkDown => 0x06
  | .hostLanesShort => 0x07
  | .portLimit => 0x08
  | .queueFull => 0x09
  | .duplicateTag => 0x0A
  | .overCeiling => 0x0B
  | .noFloor => 0x0C
  | .noCircuit => 0x0D
  | .notYours => 0x0E
  | .alreadyClosing => 0x0F
  | .noRequest => 0x10
  | .badValue => 0x11
  | .logGap => 0x12

/-- R152: a reply frame. -/
def Reply.bytes (r : Reply) : List Byte :=
  [byteOf (3 + r.results.length), r.kind, r.tag, r.status.code] ++ r.results

/-- R159: the reasons of CIRCUIT_CLOSED. -/
def ClosedReason.code : ClosedReason → Byte
  | .hostClose => 1
  | .peerClose => 2
  | .peerHostGone => 3
  | .noSpare => 4
  | .trunkLost => 5

/-- R159: the reasons of OPEN_FAILED. -/
def OpenFailReason.code : OpenFailReason → Byte
  | .farPortAbsent => 1
  | .farPortLimit => 2
  | .farPortLanes => 3
  | .farTableFull => 4
  | .conflict => 5
  | .hostLanesShort => 6
  | .training => 7
  | .peerClose => 8
  | .peerHostGone => 9
  | .trunkLost => 10

/-- R159: the code and fields of a notice. -/
def Notice.fields : Notice → List Byte
  | .circuitUp c r t w => [0x01, byteOf c.val, circuitRoleByte r] ++ optByte t ++ [byteOf w]
  | .circuitRepairing c => [0x02, byteOf c.val]
  | .circuitRepaired c => [0x03, byteOf c.val]
  | .circuitNarrowed c w => [0x04, byteOf c.val, byteOf w]
  | .circuitClosed c r => [0x05, byteOf c.val, r.code]
  | .openFailed t r => [0x06, t, r.code]
  | .openExpired t => [0x07, t]
  | .trunkUp => [0x08]
  | .trunkLost r => [0x09, r.code]
  | .noticesLost n => [0x0A, byteOf n]

/-- R159: a notice frame: a length byte, then the code and fields. -/
def Notice.bytes (n : Notice) : List Byte := byteOf n.fields.length :: n.fields

end Sys2Proof.Machine
end

