-- ==== Sys2Proof/Machine/Load.lean ====
section
/-! DEFINITION. Sys2Proof/Machine/Load.lean: the meanings of DEVICE_RESET and CONFIG_LOAD_END, with the judging and the
applying of the configuration image (R177 to R180). -/

namespace Sys2Proof.Machine

open Sys2Proof

/-- What a command answers. -/
abbrev Out := Host.Outcome State Fault Refusal

/-- DEVICE_RESET (R177): every block in its reset state, straps sampled, the load started from its beginning. The
commands that wait stay in the queue, and the model's count of losses goes on (log entry 18). -/
def execDeviceReset (side : Side) (steer present : Table 6 Bool) (s : State) : Out :=
  .next { State.afterReset side steer present with pending := s.pending, losses := s.losses }

/-! ### The image (R177, R178) -/

/-- A byte of the image; a memory that gives no byte leaves the line high, 0xFF (R177). -/
def imageByte (image : List Byte) (i : Nat) : Byte := image.getD i 0xFF

/-- R177: the record count. -/
def imageCount (image : List Byte) : Nat := (imageByte image 5).toNat

/-- R177: record `j`: its id and its value. -/
def imageRecord (image : List Byte) (j : Nat) : Byte × Mask :=
  (imageByte image (6 + 4 * j),
    maskOf (imageByte image (7 + 4 * j)) (imageByte image (8 + 4 * j)) (imageByte image (9 + 4 * j)))

/-- R177: the records in image order. -/
def imageRecords (image : List Byte) : List (Byte × Mask) :=
  (List.range (imageCount image)).map (imageRecord image)

/-- R178 case 1: the four signature bytes are all 0xFF. -/
def noResponse (image : List Byte) : Bool := (List.range 4).map (imageByte image) = [0xFF, 0xFF, 0xFF, 0xFF]

/-- R178 case 2, negated: signature, format version and record count are good. -/
def headerOk (image : List Byte) : Bool :=
  (List.range 4).map (imageByte image) = [0xA5, 0x5A, 0xC3, 0x3C] ∧ imageByte image 4 = 0x01
    ∧ imageCount image ≤ 64

/-- R178 case 3, negated: the check matches. -/
def imageCheckOk (image : List Byte) : Bool :=
  let n := 6 + 4 * imageCount image
  crc ((List.range n).map (imageByte image)) = halfOf (imageByte image n) (imageByte image (n + 1))

/-- R177: what the load issues on the configuration port: the read command byte and three address bytes of 0. -/
def configCommand : List Byte := [0x03, 0x00, 0x00, 0x00]

/-- R177, R178: how many bytes the load clocks in: the six of the header, then, where the header is good, four for each
record and the two of the check. -/
def imageClocked (image : List Byte) : Nat :=
  if noResponse image = true ∨ headerOk image = false then 6 else 8 + 4 * imageCount image

/-! ### Applying the records (R179) -/

/-- The parameters so far and the entries made so far, in order. -/
structure Loaded where
  params : Params
  entries : List (LogKind × Half)
  deriving DecidableEq, Repr

/-- R169: a PARAM_DEFAULTED entry. -/
def Loaded.defaulted (r : Loaded) (p : Params) (hi lo : Byte) : Loaded :=
  ⟨p, r.entries ++ [(.paramDefaulted, detail2 hi lo)]⟩

/-- R179: a record applied. -/
def Loaded.record (r : Loaded) (rec : Byte × Mask) : Loaded :=
  match paramOf rec.1 with
  | none => r.defaulted r.params 1 rec.1
  | some id =>
      if id.inRange rec.2 then { r with params := r.params.write id rec.2 }
      else r.defaulted (r.params.write id (Params.read {} id)) 1 rec.1

/-- R179 joint check 1: H above Q. -/
def Loaded.joinHold (r : Loaded) : Loaded :=
  if r.params.qualify < r.params.hold then
    r.defaulted { r.params with hold := min r.params.qualify 64 } 1 0x05
  else r

/-- R179 joint check 2, for one port: its floor above its ceiling. -/
def Loaded.joinFloor (r : Loaded) (h : PortId) : Loaded :=
  if r.params.ceilings.get h < r.params.floors.get h then
    r.defaulted { r.params with floors := r.params.floors.set h 0 } 1 (byteOf (0x10 + h.val))
  else r

/-- R179 joint check 3: the sum of the floors above the number of lanes in the mask. -/
def Loaded.joinFloorSum (r : Loaded) : Loaded :=
  if (lanesOf r.params.enableMask).length < r.params.floorSum then
    r.defaulted { r.params with floors := Table.fill 6 0 } 2 0
  else r

/-- R179: the joint checks in order. -/
def Loaded.joint (r : Loaded) : Loaded :=
  ((indexes 6).foldl Loaded.joinFloor r.joinHold).joinFloorSum

/-- R178, R179: what the load makes of an image. -/
def loadImage (image : List Byte) : Loaded :=
  if noResponse image then ⟨{}, [(.configDefaulted, 1)]⟩
  else if headerOk image = false then ⟨{}, [(.configDefaulted, 2)]⟩
  else if imageCheckOk image = false then ⟨{}, [(.configDefaulted, 3)]⟩
  else
    let r := ((imageRecords image).foldl Loaded.record ⟨{}, []⟩).joint
    { r with entries := r.entries ++ [(.configLoaded, BitVec.ofNat 16 (imageCount image))] }

/-- Every port record changed by `f`. -/
def State.mapPorts (s : State) (f : Port → Port) : State := { s with ports := s.ports.map f }

/-- R180: the load end, in its order. -/
def State.endLoad (s : State) (image : List Byte) : State :=
  let r := loadImage image
  let s := { s with params := r.params }
  let s := r.entries.foldl (fun s e => s.log e.1 none none e.2) s
  let s := s.mapPorts fun p => { p with cursor := s.oldestEntry }
  let s := State.beginJoining { s with loading := false, configPort := ⟨configCommand, imageClocked image⟩ }
  { s with
    sweepTimer := .running s.params.sweepInterval
    controlTimer := .running s.params.controlTick }

/-- CONFIG_LOAD_END (R180). Only a load in progress can end (log entry 5). -/
def execConfigLoadEnd (image : List Byte) (s : State) : Out :=
  .next (if s.loading then s.endLoad image else s)

end Sys2Proof.Machine
end

