-- ==== Sys2Proof/Machine/Ports.lean ====
section
/-! DEFINITION. Sys2Proof/Machine/Ports.lean: the meanings of the host port commands: presence, command bytes and
transaction ends (R47, R68, R149 to R153, R158, R161, R163 to R165). -/

namespace Sys2Proof.Machine

open Sys2Proof

/-! ### Presence -/

/-- R164: the port record of an arriving host; the cursor is set unless the load is in progress. -/
def State.arrive (s : State) (h : PortId) : State :=
  s.modPort h fun p =>
    { p with link := .ready, notices := [], rejected := false, cursor := if s.loading then p.cursor else s.oldestEntry }

/-- HOST_ARRIVAL (R164). PRESENT driven on a port that is present already is no arrival (log entry 5). -/
def execHostArrival (port : PortId) (s : State) : Out :=
  .next (if (s.port port).present then s else s.arrive port)

/-- R165 step 1: the port record of a departed host. A transaction in progress has no effect at its end, and the frame
it shifts out stays as it was fixed (R149). -/
def Port.depart (p : Port) : Port :=
  { p with
    link := .absent, notices := [], rejected := false
    transaction := p.transaction.map fun t => { t with void := true } }

/-- R47: the close that a departure begins on a circuit of the port. -/
def State.departCircuit (s : State) (cx : SlotId × Circuit) : State :=
  s.beginClose cx.1 (if cx.2.state = .proposed then .withdrawn else .hostGone)

/-- R165: the departure, in its order. -/
def State.depart (s : State) (h : PortId) : State :=
  let s := s.modPort h Port.depart
  let s := (s.circuitsOf h).foldl State.departCircuit s
  (s.dropEntries fun e => e.port = h).finish

/-- HOST_DEPARTURE (R165). PRESENT released on an ABSENT port is no departure (log entry 5). -/
def execHostDeparture (port : PortId) (s : State) : Out :=
  .next (if (s.port port).present then s.depart port else s)

/-! ### The command byte (R149) -/

/-- The command codes (R149). -/
def cmdWriteRequest : Byte := 0x5A
/-- READ_REPLY's code. -/
def cmdReadReply : Byte := 0x5B
/-- READ_NOTICE's code. -/
def cmdReadNotice : Byte := 0x5C
/-- READ_STATUS's code. -/
def cmdReadStatus : Byte := 0x5D

/-- R149: the code is one of the four defined. -/
def cmdDefined (code : Byte) : Bool :=
  code = cmdWriteRequest ∨ code = cmdReadReply ∨ code = cmdReadNotice ∨ code = cmdReadStatus

/-- R161: the number of notices held, as READ_STATUS shifts it out. -/
def Port.noticeCount (p : Port) : Byte := byteOf p.notices.length

/-- R149, R158, R161: the frame a transaction shifts out after its status byte, fixed when the command byte is
complete; the zero-length frame is the single byte 0x00. -/
def Port.fixedFrame (p : Port) (code : Byte) : List Byte :=
  if code = cmdReadReply then
    match p.link with
    | .replied r => r.bytes
    | _ => [0]
  else if code = cmdReadNotice then
    match p.notices with
    | n :: _ => n.bytes
    | [] => [0]
  else if code = cmdReadStatus then [p.noticeCount]
  else []

/-- R149: the command byte is taken: the status byte is shifted out and the transaction is in progress. R149 takes the
status byte at the first clock and fixes the frame when the byte is complete; here the whole byte is one event (log entry
35). -/
def State.takeCommand (s : State) (h : PortId) (code : Byte) : State :=
  s.modPort h fun p =>
    { p with
      transaction := some ⟨code, p.link = .absent, p.fixedFrame code, p.link = .absent⟩
      shiftOut := [s.statusByte h] }

/-- COMMAND_BYTE (R149). -/
def execCommandByte (port : PortId) (code : Byte) (s : State) : Out :=
  .next (s.takeCommand port code)

/-! ### Transaction ends -/

/-- R149: `n` bytes shifted out of a frame; clocks beyond its end shift out 0x00. -/
def shifted (frame : List Byte) (n : Nat) : List Byte :=
  frame.take n ++ List.replicate (n - frame.length) 0

/-- Log entry 11: the bytes an ABSENT port shifts out after its status byte. -/
def absentBytes (n : Nat) : List Byte := (List.range n).map Config.absentByte

/-- R149: what a transaction shifts out in `n` bytes: its frame, then 0x00. What an ABSENT port shifts out under a defined
command code is open (log entry 11); under any other code it is 0x00. -/
def Transaction.out (t : Transaction) (frame : List Byte) (n : Nat) : List Byte :=
  if t.absent = true ∧ cmdDefined t.code = true then absentBytes n else shifted frame n

/-- A transaction with this command byte ends after `n` bytes beyond it. `act` is its effect on the port record and
`frame` what was shifted out; a void transaction has no effect (R149, R165). A port with no transaction in progress
takes the command byte first (log entry 8); a transaction with another command byte is not this one (log entry 5). -/
def State.endTransaction (s : State) (h : PortId) (code : Byte) (n : Nat) (frame : Port → Transaction → List Byte)
    (act : Port → Transaction → Port) : State :=
  let s := if (s.port h).transaction = none then s.takeCommand h code else s
  match (s.port h).transaction with
  | none => s
  | some t =>
      if t.code ≠ code then s
      else
        s.modPort h fun p =>
          { (if t.void then p else act p t) with
            transaction := none
            shiftOut := p.shiftOut ++ t.out (frame p t) n }

/-- R153: a request frame judged by the port controller: a reply of its own, or the dispatched request. -/
def judgeRequest (loading steering : Bool) (f : ReqFrame) : Link :=
  if loading then .replied ⟨f.kind, f.tag, .notReady, []⟩
  else
    match reqKindOf f.kind with
    | none => .replied ⟨f.kind, f.tag, .badRequest, []⟩
    | some k =>
        if f.length ≠ k.length then .replied ⟨f.kind, f.tag, .badRequest, []⟩
        else if k.steeringOnly = true ∧ steering = false then .replied ⟨f.kind, f.tag, .notPermitted, []⟩
        else .working ⟨k, f.tag, f.params⟩

/-- R151: what a WRITE_REQUEST transaction does at its end. -/
def Port.writeRequest (loading : Bool) (bytes : List Byte) (p : Port) : Port :=
  match p.link with
  | .absent => p
  | .ready =>
      match completeFrame bytes with
      | some f => { p with link := judgeRequest loading p.steering f }
      | none => { p with rejected := true }
  | .working _ => { p with rejected := true }
  | .replied _ => { p with rejected := true }

/-- WRITE_REQUEST (R151, R153). The port shifts out 0x00 meanwhile. -/
def execWriteRequest (port : PortId) (bytes : List Byte) (s : State) : Out :=
  .next (s.endTransaction port cmdWriteRequest bytes.length (fun _ _ => [])
    fun p _ => p.writeRequest s.loading bytes)

/-- R158: a reply that was shifted out to its last byte leaves the reply slot, and the port goes READY. -/
def Port.replyRead (clocked : Nat) (p : Port) (t : Transaction) : Port :=
  match p.link with
  | .replied r => if t.frame = r.bytes ∧ t.frame.length ≤ clocked then { p with link := .ready } else p
  | _ => p

/-- READ_REPLY (R158). -/
def execReadReply (port : PortId) (clocked : Nat) (s : State) : Out :=
  .next (s.endTransaction port cmdReadReply clocked (fun _ t => t.frame) (Port.replyRead clocked))

/-- R161: a notice that was shifted out to its last byte leaves the head of the queue; a zero-length frame changes
nothing. -/
def Port.noticeRead (clocked : Nat) (p : Port) (t : Transaction) : Port :=
  if t.frame ≠ [0] ∧ t.frame.length ≤ clocked then { p with notices := p.notices.tail } else p

/-- READ_NOTICE (R161). -/
def execReadNotice (port : PortId) (clocked : Nat) (s : State) : Out :=
  .next (s.endTransaction port cmdReadNotice clocked (fun _ t => t.frame) (Port.noticeRead clocked))

/-- Log entry 10: the byte READ_STATUS shifts out: a count between the one at the command byte and the one at the
transaction end; any count a queue can have, where the host departed meanwhile. -/
def statusFrame (p : Port) (t : Transaction) : List Byte :=
  let first := ((t.frame.headD 0) : Byte).toNat
  let last := p.noticeCount.toNat
  let count := Config.statusCount first last
  [byteOf (if t.void then min 16 count else max first (min last count))]

/-- READ_STATUS (R161): the rejected flag is cleared at the transaction end. -/
def execReadStatus (port : PortId) (clocked : Nat) (s : State) : Out :=
  .next (s.endTransaction port cmdReadStatus clocked statusFrame fun p _ => { p with rejected := false })

/-- UNKNOWN_COMMAND (R149): 0x00 is shifted out after the status byte, and the transaction has no effect. A code that
is defined makes no such transaction (log entry 5). -/
def execUnknownCommand (port : PortId) (code : Byte) (clocked : Nat) (s : State) : Out :=
  .next (if cmdDefined code then s
    else s.endTransaction port code clocked (fun _ _ => []) fun p _ => p)

end Sys2Proof.Machine
end

