-- ==== Sys2Proof/Machine/Requests.lean ====
section
/-! DEFINITION. Sys2Proof/Machine/Requests.lean: the meanings of the twelve requests, each the event in which the owner
takes a dispatched request from a port's request slot and places its reply (R17, R18, R21, R45, R49, R55, R56, R62,
R101, R146, R147, R154, R166, R172, R181, R182). -/

namespace Sys2Proof.Machine

open Sys2Proof

/-- R154, R166: the request of a kind that a port's request slot holds; none when there is none to take. -/
def State.request (s : State) (h : PortId) (k : ReqKind) : Option Request :=
  match (s.port h).link with
  | .working r => if r.kind = k then some r else none
  | _ => none

/-- The event in which an owner takes a request; without such a request nothing happens (log entry 5). -/
def State.takeRequest (s : State) (h : PortId) (k : ReqKind) (act : List Byte → State) : State :=
  match s.request h k with
  | none => s
  | some r => act r.params

/-! ### OPEN (R55, R56) -/

/-- An OPEN whose parameters pass check 1 of R55. -/
structure OpenParams where
  far : PortId
  cls : Cls
  reqWidth : Nat
  minWidth : Nat
  patience : Nat
  deriving DecidableEq, Repr

/-- R55 check 1: the parameters of an OPEN; none where one is out of range. -/
def openParams : List Byte → Option OpenParams
  | [far, cls, rw, mw, pat] =>
      match portOfByte far, clsOf cls with
      | some far, some cls =>
          if 1 ≤ rw.toNat ∧ rw.toNat ≤ 8 ∧ 1 ≤ mw.toNat ∧ mw.toNat ≤ rw.toNat ∧ 1 ≤ pat.toNat ∧ pat.toNat ≤ 15 then
            some ⟨far, cls, rw.toNat, mw.toNat, pat.toNat⟩
          else none
      | _, _ => none
  | _ => none

/-- R55 checks 2 to 8, in order: the reply of the first that fails. -/
def State.openRefusal (s : State) (h : PortId) (tag : Byte) (o : OpenParams) : Option Status :=
  if s.queue.any (fun e => e.port = h ∧ e.tag = tag) then some .duplicateTag
  else if s.trunk ≠ .up then some .trunkDown
  else if o.cls = .reserved ∧ s.params.floors.get h < o.minWidth then some .noFloor
  else if s.params.ceilings.get h < o.minWidth then some .overCeiling
  else if 4 ≤ s.portLoad h then some .portLimit
  else if (s.freeHostLanes h).length < o.reqWidth then some .hostLanesShort
  else if 12 ≤ s.queue.length then some .queueFull
  else none

/-- R56: the entry of an OPEN that passed every check joins the queue's tail. -/
def State.appendEntry (s : State) (h : PortId) (tag : Byte) (o : OpenParams) : State :=
  { s with
    queue := s.queue ++
      [{ port := h, tag := tag, far := o.far, cls := o.cls, reqWidth := o.reqWidth, minWidth := o.minWidth,
         patience := o.patience, arrival := s.arrivals, slot := none,
         reserved := (s.freeHostLanes h).take o.reqWidth, conflicts := 0 }]
    arrivals := s.arrivals + 1 }

/-- R56: the reply to an OPEN after its scan: PROCEEDING with slot and grant width where the entry was served. -/
def State.replyOpen (s : State) (h : PortId) (tag : Byte) (arrival : Half) : State :=
  match (s.queue.find? fun e => e.port = h ∧ e.tag = tag).bind (·.slot) with
  | some c =>
      s.reply h .proceeding
        (halfBytes arrival ++ [byteOf c.val, byteOf (((s.circuit c).map Circuit.width).getD 0)])
  | none => s.reply h .queued (halfBytes arrival)

/-- R55, R56: an OPEN is taken. Its own scan is the event's one scan (R58). -/
def State.takeOpen (s : State) (h : PortId) (tag : Byte) (params : List Byte) : State :=
  match openParams params with
  | none => s.reply h .badRequest []
  | some o =>
      match s.openRefusal h tag o with
      | some status => s.reply h status []
      | none => (((s.appendEntry h tag o).scan).replyOpen h tag s.arrivals).finish

/-- The request tag of the request a port holds. -/
def State.requestTag (s : State) (h : PortId) : Byte :=
  match (s.port h).link with
  | .working r => r.tag
  | _ => 0

/-- OPEN (R55, R56). -/
def execOpenCircuit (port : PortId) (s : State) : Out :=
  .next (s.takeRequest port .openCircuit (s.takeOpen port (s.requestTag port)))

/-! ### CLOSE and WITHDRAW (R45, R62) -/

/-- R45: a host CLOSE of the circuit in a slot. -/
def State.closeSlot (s : State) (h : PortId) (c : SlotId) : State :=
  match s.circuit c with
  | none => s.reply h .noCircuit []
  | some x =>
      if x.near ≠ h then s.reply h .notYours []
      else
        match x.state with
        | .closing => s.reply h .alreadyClosing []
        | .proposed => (((s.beginClose c .withdrawn).dropEntryOfSlot c).reply h .ok []).finish
        | _ => ((s.beginClose c .hostClose).reply h .ok []).finish

/-- R45: the request CLOSE is taken. -/
def State.takeClose (s : State) (h : PortId) : List Byte → State
  | [slot] =>
      match slotOfByte slot with
      | none => s.reply h .badRequest []
      | some c => s.closeSlot h c
  | _ => s.reply h .badRequest []

/-- CLOSE_REQUEST (R45). -/
def execCloseRequest (port : PortId) (s : State) : Out :=
  .next (s.takeRequest port .close (s.takeClose port))

/-- R62: an entry is withdrawn; its circuit, if it has one, begins a close. -/
def State.withdrawEntry (s : State) (e : Entry) : State :=
  let s :=
    match e.slot with
    | none => s
    | some c => s.beginClose c .withdrawn
  s.dropEntries fun o => o.port = e.port ∧ o.tag = e.tag

/-- R62: WITHDRAW is taken. -/
def State.takeWithdraw (s : State) (h : PortId) : List Byte → State
  | [tag] =>
      match s.queue.find? fun e => e.port = h ∧ e.tag = tag with
      | none => s.reply h .noRequest []
      | some e => ((s.withdrawEntry e).reply h .ok []).finish
  | _ => s.reply h .badRequest []

/-- WITHDRAW (R62). -/
def execWithdraw (port : PortId) (s : State) : Out :=
  .next (s.takeRequest port .withdraw (s.takeWithdraw port))

/-! ### Status requests (R21, R49, R147) -/

/-- R49: CIRCUIT_STATUS is taken. -/
def State.takeCircuitStatus (s : State) (h : PortId) : List Byte → State
  | [slot] =>
      match slotOfByte slot with
      | none => s.reply h .badRequest []
      | some c => s.reply h .ok (s.slots.get c).bytes
  | _ => s.reply h .badRequest []

/-- CIRCUIT_STATUS (R49). -/
def execCircuitStatus (port : PortId) (s : State) : Out :=
  .next (s.takeRequest port .circuitStatus (s.takeCircuitStatus port))

/-- R21: LANE_STATUS is taken. -/
def State.takeLaneStatus (s : State) (h : PortId) : List Byte → State
  | [lane] =>
      match laneOfByte lane with
      | none => s.reply h .badRequest []
      | some i => s.reply h .ok ((s.lane i).bytes (s.ownerTag i))
  | _ => s.reply h .badRequest []

/-- LANE_STATUS (R21). -/
def execLaneStatus (port : PortId) (s : State) : Out :=
  .next (s.takeRequest port .laneStatus (s.takeLaneStatus port))

/-- TRUNK_STATUS (R80, R147). -/
def execTrunkStatus (port : PortId) (s : State) : Out :=
  .next (s.takeRequest port .trunkStatus fun _ => s.reply port .ok s.trunkBytes)

/-! ### READ_LOG (R171, R172) -/

/-- R171: a cursor is valid. -/
def State.cursorValid (s : State) (cursor : Half) : Bool := (cursor - s.oldestEntry).toNat ≤ s.ring.length

/-- R172: the entries from a valid cursor onward, at most `count`. -/
def State.entriesFrom (s : State) (cursor : Half) (count : Nat) : List LogEntry :=
  (s.ring.drop (cursor - s.oldestEntry).toNat).take count

/-- R156: entries as results: their count, then each. -/
def entriesBytes (es : List LogEntry) : List Byte := byteOf es.length :: es.flatMap LogEntry.bytes

/-- A port's log cursor set (R171). -/
def State.setCursor (s : State) (h : PortId) (cursor : Half) : State :=
  s.modPort h fun p => { p with cursor := cursor }

/-- R172: READ_LOG with a count from 1 to 4. -/
def State.readLog (s : State) (h : PortId) (count : Nat) : State :=
  let cursor := (s.port h).cursor
  if s.cursorValid cursor then
    let es := s.entriesFrom cursor count
    (s.setCursor h (cursor + BitVec.ofNat 16 es.length)).reply h .ok (entriesBytes es)
  else
    let es := s.entriesFrom s.oldestEntry count
    (s.setCursor h (s.oldestEntry + BitVec.ofNat 16 es.length)).reply h .logGap
      (halfBytes (s.oldestEntry - cursor) ++ entriesBytes es)

/-- R172: READ_LOG is taken. -/
def State.takeReadLog (s : State) (h : PortId) : List Byte → State
  | [count] => if 1 ≤ count.toNat ∧ count.toNat ≤ 4 then s.readLog h count.toNat else s.reply h .badRequest []
  | _ => s.reply h .badRequest []

/-- READ_LOG (R172). -/
def execReadLog (port : PortId) (s : State) : Out :=
  .next (s.takeRequest port .readLog (s.takeReadLog port))

/-! ### READ_PARAM and WRITE_PARAM (R181, R182) -/

/-- R181: READ_PARAM is taken. -/
def State.takeReadParam (s : State) (h : PortId) : List Byte → State
  | [id] =>
      match paramOf id with
      | none => s.reply h .badRequest []
      | some q => s.reply h .ok (id :: maskBytes (s.params.read q))
  | _ => s.reply h .badRequest []

/-- READ_PARAM (R181). -/
def execReadParam (port : PortId) (s : State) : Out :=
  .next (s.takeRequest port .readParam (s.takeReadParam port))

/-- R182 cases 3 to 5: a write that would break a joint limit of its own parameter. -/
def Params.breaksJoint (p : Params) (id : ParamId) (v : Mask) : Bool :=
  match id with
  | .hold => decide (p.qualify < v.toNat)
  | .qualify => decide (v.toNat < p.hold)
  | .floor h =>
      decide (p.ceilings.get h < v.toNat)
        || decide ((lanesOf p.enableMask).length < (p.write (.floor h) v).floorSum)
  | .ceiling h => decide (v.toNat < p.floors.get h)
  | .enableMask => decide ((lanesOf v).length < p.floorSum)
  | _ => false

/-- R101: a lane's strikes after a write of the strike limit. -/
def Lane.clampStrikes (limit : Nat) (l : Lane) : Lane :=
  if l.state = .active ∧ limit - 1 < l.strikes then { l with strikes := limit - 1 } else l

/-- R101: strikes are clamped where the strike limit is lowered. -/
def State.clampStrikes (s : State) (old : Nat) : State :=
  if s.params.strikeLimit < old then { s with lanes := s.lanes.map (Lane.clampStrikes s.params.strikeLimit) } else s

/-- R58, R183: what a write does at once: strikes clamped, or a scan due. -/
def ParamId.afterWrite (id : ParamId) (old : Params) (s : State) : State :=
  match id with
  | .strikeLimit => s.clampStrikes old.strikeLimit
  | .floor _ => s.scanDue
  | .ceiling _ => s.scanDue
  | _ => s

/-- R182: a write to a parameter of the table. -/
def State.writeParam (s : State) (h : PortId) (id : ParamId) (v : Mask) : State :=
  if id.inRange v = false ∨ s.params.breaksJoint id v = true then s.reply h .badValue []
  else ((id.afterWrite s.params { s with params := s.params.write id v }).reply h .ok []).finish

/-- R182: WRITE_PARAM is taken. -/
def State.takeWriteParam (s : State) (h : PortId) : List Byte → State
  | [id, a, b, c] =>
      match paramOf id with
      | none => s.reply h .badRequest []
      | some q => s.writeParam h q (maskOf a b c)
  | _ => s.reply h .badRequest []

/-- WRITE_PARAM (R182). -/
def execWriteParam (port : PortId) (s : State) : Out :=
  .next (s.takeRequest port .writeParam (s.takeWriteParam port))

/-! ### FENCE_LANE and UNFENCE_LANE (R17, R18) -/

/-- R17: the effect of FENCE_LANE, by the lane's state. -/
def State.fenceByHost (s : State) (i : LaneId) : State :=
  match (s.lane i).state with
  | .offline => if (s.lane i).localFence then s else s.setLocalFence i none (.failure .host)
  | .free => (s.setLocalFence i none (.failure .host)).quarantine i
  | .quarantined => if (s.lane i).localFence then s else s.setLocalFence i none (.failure .host)
  | .claimed => (s.setLocalFence i (s.ownerTag i) (.failure .host)).expel i (some .host)
  | .training => (s.setLocalFence i (s.ownerTag i) (.failure .host)).expel i (some .host)
  | .qualified => (s.setLocalFence i (s.ownerTag i) (.failure .host)).expel i (some .host)
  | .active => s.declareFailing i .host 0
  | .failing => s
  | .releasing =>
      s.modLane i fun l => { l with failure := some (l.failure.getD .host) }

/-- R18: the effect of UNFENCE_LANE. -/
def State.unfenceByHost (s : State) (i : LaneId) : State :=
  let s := s.modLane i fun l => { l with failCount := 0 }
  if (s.lane i).localFence then
    let s := s.clearLocalFence i
    if (s.lane i).state = .quarantined ∧ (s.lane i).peerFence = false then s.freeLane .tail i else s
  else s

/-- A request that names a lane and is answered OK is taken. -/
def State.takeLane1 (s : State) (h : PortId) (act : LaneId → State) : List Byte → State
  | [lane] =>
      match laneOfByte lane with
      | none => s.reply h .badRequest []
      | some i => ((act i).reply h .ok []).finish
  | _ => s.reply h .badRequest []

/-- FENCE_LANE (R17). -/
def execFenceLane (port : PortId) (s : State) : Out :=
  .next (s.takeRequest port .fenceLane (s.takeLane1 port s.fenceByHost))

/-- UNFENCE_LANE (R18). -/
def execUnfenceLane (port : PortId) (s : State) : Out :=
  .next (s.takeRequest port .unfenceLane (s.takeLane1 port s.unfenceByHost))

/-! ### RESTART_TRUNK (R146) -/

/-- R146: the effect of RESTART_TRUNK, by the trunk state. -/
def State.restartByHost (s : State) : State :=
  match s.trunk with
  | .up => s.goLost .restart
  | .joining => s.beginJoining
  | .lost => s
  | .down => s

/-- RESTART_TRUNK (R146). -/
def execRestartTrunk (port : PortId) (s : State) : Out :=
  .next (s.takeRequest port .restartTrunk fun _ => (s.restartByHost.reply port .ok []).finish)

end Sys2Proof.Machine
end

