-- ==== Sys2Proof/Machine/Frames.lean ====
section
/-! DEFINITION. Sys2Proof/Machine/Frames.lean: the meanings of the frames received on the TCC pair and of
FRAME_TRANSMIT (R13, R14, R30 to R37, R41 to R44, R63 to R65, R111, R116, R117, R122, R126, R127, R132, R133, R140,
R143, R145). -/

namespace Sys2Proof.Machine

open Sys2Proof

/-! ### Reception (R127, R132, R133) -/

/-- BAD_FRAME (R127, R145): counted unless the line is ignored. A run of bytes that is not judged bad is no bad frame
(log entry 5). -/
def execBadFrame (bytes : List Byte) (s : State) : Out :=
  .next
    (if s.trunk ≠ .down ∧ judge bytes = .bad then
      { s with badFrames := satSucc 65535 s.badFrames, partFrame := false }
    else s)

/-- R127, R145: a good frame completes and is discarded; one of which a part had arrived at the loss is then complete
(R144). DOWN ignores the line. -/
def State.discardFrame (s : State) : State := if s.trunk = .down then s else { s with partFrame := false }

/-- R127: the event in course is that of a received frame. -/
def State.received (s : State) : State := { s with scratch := { s.scratch with received := true } }

/-- R127, R132: a good sequenced frame: taken while UP, discarded otherwise; `deliver` is the owning block's work on an
accepted message. -/
def State.receive (s : State) (seq ack : Seq) (deliver : State → State) : State :=
  if s.trunk ≠ .up then s.discardFrame
  else
    let s := State.acknowledge { s with silenceCount := 0 } ack
    if seq = s.expectedSeq then (deliver (State.received { s with expectedSeq := s.expectedSeq + 1 })).finish else s

/-- ACK (R127, R133). -/
def execAck (_seq ack : Seq) (s : State) : Out :=
  .next (if s.trunk = .up then State.acknowledge { s with silenceCount := 0 } ack else s.discardFrame)

/-! ### JOIN (R140, R143) -/

/-- R140: a good JOIN while JOINING. -/
def State.joinWhileJoining (s : State) (j : JoinInfo) : State :=
  if j.side = s.side then
    if s.clash then s else { s.log .joinClash none none 0 with clash := true }
  else
    let s := { s with peerHeard := true, peerEnable := some j.enable, peerFences := some j.fences }
    if j.ready || j.up then s.received.goUp.finish else s

/-- R143: a good JOIN while UP. -/
def State.joinUp (s : State) (j : JoinInfo) : State :=
  let s := { s with silenceCount := 0 }
  if j.side = s.side then (s.received.goLost .sideClash).finish
  else if j.up then s
  else if j.ready then s.sendJoin true true
  else (s.received.goLost .peerRestart).finish

/-- A good JOIN by the trunk state it meets (log entry 7): discarded in DOWN and LOST, and in JOINING where a part of it
had arrived when the trunk was declared LOST (R144). -/
def State.receiveJoin (s : State) (j : JoinInfo) : State :=
  match s.trunk with
  | .joining => if s.partFrame then s.discardFrame else s.joinWhileJoining j
  | .up => s.joinUp j
  | .down => s
  | .lost => s.discardFrame

/-- JOIN (R140). -/
def execJoin (_seq _ack : Seq) (info : JoinInfo) (s : State) : Out := .next (s.receiveJoin info)

/-- JOIN_WHILE_UP (R143). -/
def execJoinWhileUp (_seq _ack : Seq) (info : JoinInfo) (s : State) : Out := .next (s.receiveJoin info)

/-! ### SETUP (R33 to R35) -/

/-- A SETUP whose content is in range. -/
structure SetupIn where
  near : PortId
  far : PortId
  lanes : List LaneId
  deriving DecidableEq, Repr

/-- The lanes the pairs of a SETUP name; none where one is above T23. -/
def pairLanes : List (Byte × Byte) → Option (List LaneId)
  | [] => some []
  | (_, l) :: rest =>
      match laneOfByte l, pairLanes rest with
      | some i, some is => some (i :: is)
      | _, _ => none

/-- R33: the content of a SETUP; none where it is out of range. The near port is the far port the SETUP names. -/
def setupIn (far near reqWidth minWidth : Byte) (pairs : List (Byte × Byte)) : Option SetupIn :=
  match portOfByte far, portOfByte near, pairLanes pairs with
  | some far, some near, some lanes =>
      if 1 ≤ pairs.length ∧ pairs.length ≤ 8 ∧ pairs.map (·.1.toNat) = List.range pairs.length ∧ lanes.Nodup
          ∧ 1 ≤ minWidth.toNat ∧ minWidth.toNat ≤ reqWidth.toNat ∧ pairs.length ≤ reqWidth.toNat then
        some ⟨far, near, lanes⟩
      else none
  | _, _, _ => none

/-- R34: the named lanes that are neither FREE nor CLAIMED. -/
def State.otherLanes (s : State) (lanes : List LaneId) : List LaneId :=
  lanes.filter fun i => decide ((s.lane i).state ≠ .free ∧ (s.lane i).state ≠ .claimed)

/-- R34: the named lanes that are CLAIMED by a proposal of this side. -/
def State.claimedLanes (s : State) (lanes : List LaneId) : List LaneId :=
  lanes.filter fun i => decide ((s.lane i).state = .claimed)

/-- R33, R34: the first check that a SETUP fails, with the lanes its REFUSE lists. -/
def State.setupRefusal (s : State) (m : SetupIn) : Option (RefuseReason × List LaneId) :=
  if (s.port m.near).present = false then some (.farPortAbsent, [])
  else if 4 ≤ s.portLoad m.near then some (.farPortLimit, [])
  else if (s.freeHostLanes m.near).length < m.lanes.length then some (.farPortLanes, [])
  else if s.vacantSlot = none then some (.farTableFull, [])
  else if s.otherLanes m.lanes ≠ [] then some (.laneUnavailable, s.otherLanes m.lanes)
  else if s.side = .a ∧ s.claimedLanes m.lanes ≠ [] then some (.laneConflict, s.claimedLanes m.lanes)
  else none

/-- R35: a SETUP is accepted into slot `c`; CLAIMED lanes, on side B alone, leave their proposals first (R34). -/
def State.acceptSetup (s : State) (c : SlotId) (t : Tag) (m : SetupIn) (cls : Cls) (reqWidth minWidth : Nat) : State :=
  let hosts := (s.freeHostLanes m.near).take m.lanes.length
  let s := (s.claimedLanes m.lanes).foldl State.unname s
  let s := s.setCircuit c
    { state := .training, role := .answer, tag := t, answerSlot := none, near := m.near, far := m.far, cls := cls,
      reqWidth := reqWidth, minWidth := minWidth, reqTag := none, positions := newPositions hosts m.lanes,
      repairCount := 0, closeReason := none, everUp := false }
  let s := (numbered m.lanes).foldl (fun s pl => s.takeNamed pl.2 ⟨c, .current, pl.1⟩) s
  s.send (.accept t (byteOf c.val))

/-- R33: a tag is stored by a non-vacant ANSWER record. -/
def State.answers (s : State) (t : Tag) : Bool := s.circuits.any fun cx => cx.2.role = .answer ∧ cx.2.tag = t

/-- R33: SETUP is taken. -/
def State.takeSetup (s : State) (t : Tag) (far near : Byte) (cls : Cls) (reqWidth minWidth : Byte)
    (pairs : List (Byte × Byte)) : State :=
  if t.side = s.side ∨ s.answers t = true then s
  else
    match setupIn far near reqWidth minWidth pairs with
    | none => s
    | some m =>
        match s.setupRefusal m, s.vacantSlot with
        | some (r, lanes), _ => s.send (.refuse t r (lanes.map fun i => byteOf i.val))
        | none, some c => s.acceptSetup c t m cls reqWidth.toNat minWidth.toNat
        | none, none => s

/-- SETUP (R33). -/
def execSetup (seq ack : Seq) (tag : Tag) (far near : Byte) (cls : Cls) (reqWidth minWidth : Byte)
    (pairs : List (Byte × Byte)) (s : State) : Out :=
  .next (s.receive seq ack fun s => s.takeSetup tag far near cls reqWidth minWidth pairs)

/-! ### ACCEPT and REFUSE (R30 to R32, R41, R63 to R65) -/

/-- R30: the position numbers of a circuit whose current lane is absent. -/
def Circuit.emptyPositions (x : Circuit) : List Nat :=
  (List.range x.positions.length).filter fun p => (x.positions[p]?).any fun q => q.current.isNone && !q.dropped

/-- R30, R63: ACCEPT for a PROPOSED circuit. -/
def State.accepted (s : State) (c : SlotId) (x : Circuit) (slot : Byte) : State :=
  let s := s.setCircuit c { x with state := .training, answerSlot := slotOfByte slot }
  let s := x.lanes.foldl State.startRun s
  let s := s.dropEntryOfSlot c
  x.emptyPositions.foldl (fun s p => s.startRepair c p) s

/-- ACCEPT is taken (R30, R44). -/
def State.takeAccept (s : State) (t : Tag) (slot : Byte) : State :=
  match s.matchTag t with
  | none => s
  | some (c, x) => if x.state = .proposed then s.accepted c x slot else s

/-- ACCEPT (R30). -/
def execAccept (seq ack : Seq) (tag : Tag) (slot : Byte) (s : State) : Out :=
  .next (s.receive seq ack fun s => s.takeAccept tag slot)

/-- R64: what the host is told of a far-port refusal; none for a lane reason. -/
def openFailOf : RefuseReason → Option OpenFailReason
  | .farPortAbsent => some .farPortAbsent
  | .farPortLimit => some .farPortLimit
  | .farPortLanes => some .farPortLanes
  | .farTableFull => some .farTableFull
  | .laneConflict => none
  | .laneUnavailable => none

/-- R32: the lanes of a refused proposal that go to the pool tail, in the order listed: those a LANE_UNAVAILABLE lists
and the circuit still names. A lane listed twice counts once, and one above T23 not at all (log entry 23). -/
def tailReturns (r : RefuseReason) (named : List LaneId) (listed : List Byte) : List LaneId :=
  match r with
  | .laneUnavailable => ((listed.filterMap laneOfByte).filter fun i => decide (i ∈ named)).reverse.dedup.reverse
  | _ => []

/-- R31, R32: the lanes of a refused proposal go back: to the head in position order, then to the tail in the order
listed. -/
def State.returnLanes (s : State) (x : Circuit) (r : RefuseReason) (listed : List Byte) : State :=
  let tail := tailReturns r x.lanes listed
  (s.leaveAll (x.lanes.filter fun i => decide (i ∉ tail)) false .head).leaveAll tail false .tail

/-- R64, R65: the entry of a refused proposal. -/
def State.entryRefused (s : State) (e : Entry) (r : RefuseReason) : State :=
  match openFailOf r with
  | some why =>
      (s.dropEntries fun o => o.port = e.port ∧ o.tag = e.tag).notify e.port (.openFailed e.tag why)
  | none => s.entryConflict e

/-- R31, R32: REFUSE for a PROPOSED circuit. -/
def State.refused (s : State) (c : SlotId) (x : Circuit) (r : RefuseReason) (listed : List Byte) : State :=
  let e := s.entryOfSlot c
  let s := (s.returnLanes x r listed).vacate c
  match e with
  | none => s
  | some e => s.entryRefused e r

/-- REFUSE is taken (R31, R32, R41, R44). -/
def State.takeRefuse (s : State) (t : Tag) (r : RefuseReason) (listed : List Byte) : State :=
  match s.matchTag t with
  | none => s
  | some (c, x) =>
      match x.state with
      | .proposed => s.refused c x r listed
      | .closing => s.completeClose c
      | _ => s

/-- REFUSE (R32). -/
def execRefuse (seq ack : Seq) (tag : Tag) (reason : RefuseReason) (lanes : List Byte) (s : State) : Out :=
  .next (s.receive seq ack fun s => s.takeRefuse tag reason lanes)

/-! ### TRAINED and LANE_FAIL (R37, R111) -/

/-- R37: the lane of a position that is in TRAINING or QUALIFIED. -/
def State.trainingLane (s : State) (q : Position) : Option LaneId :=
  q.lanes.find? fun i => decide ((s.lane i).state = .training ∨ (s.lane i).state = .qualified)

/-- R37: TRAINED for a lane. -/
def State.trainedLane (s : State) (i : LaneId) (ok : Bool) : State :=
  if ok then
    let s := s.modLane i fun l => { l with peerTrained := true }
    if (s.lane i).state = .qualified then s.activate i else s
  else (s.setPeerFence i).expel i none

/-- TRAINED is taken (R37, R44). -/
def State.takeTrained (s : State) (t : Tag) (pos : Byte) (ok : Bool) : State :=
  match s.matchTag t with
  | none => s
  | some (c, x) =>
      if x.live = false then s
      else
        match (s.position c pos.toNat).bind s.trainingLane with
        | none => s
        | some i => s.trainedLane i ok

/-- TRAINED (R37). -/
def execTrained (seq ack : Seq) (tag : Tag) (pos : Byte) (ok : Bool) (s : State) : Out :=
  .next (s.receive seq ack fun s => s.takeTrained tag pos ok)

/-- R111: LANE_FAIL for the current lane of a position. -/
def State.peerFailed (s : State) (c : SlotId) (x : Circuit) (p : Nat) (i : LaneId) : State :=
  let s := s.setPeerFence i
  if x.upPhase then s.startRepair c p else s.expel i none

/-- LANE_FAIL is taken (R44, R111). -/
def State.takeLaneFail (s : State) (t : Tag) (pos : Byte) : State :=
  match s.matchTag t with
  | none => s
  | some (c, x) =>
      if x.live = false ∨ x.role = .answer then s
      else
        match s.position c pos.toNat with
        | none => s
        | some q =>
            match q.current with
            | some i => if q.dropped then s else s.peerFailed c x pos.toNat i
            | none => s

/-- LANE_FAIL (R111). The reason is not stored. -/
def execLaneFail (seq ack : Seq) (tag : Tag) (pos : Byte) (_reason : FailReason) (s : State) : Out :=
  .next (s.receive seq ack fun s => s.takeLaneFail tag pos)

/-! ### AMEND (R116, R122) -/

/-- R116: the answer to an AMEND that names a lane, by the crossing-claim rule of R34. -/
def amendAnswer (side : Side) (st : LaneState) : AmendResult :=
  match st with
  | .free => .ok
  | .claimed => match side with | .a => .laneConflict | .b => .ok
  | _ => .laneUnavailable

/-- R116: the lane that fills the accepted lane's place leaves the circuit first. -/
def State.displace (s : State) (x : Circuit) (q : Position) : State :=
  if x.upPhase then
    match q.replacement with
    | none => s
    | some r => (s.unname r).leaveAll [r] false .tail
  else
    match q.current with
    | none => s
    | some r => ((s.setPeerFence r).unname r).leaveAll [r] false .tail

/-- R112, R116: an AMEND is accepted for a position. -/
def State.acceptAmend (s : State) (c : SlotId) (x : Circuit) (p : Nat) (q : Position) (i : LaneId) : State :=
  let s := if (s.lane i).state = .claimed then s.unname i else s
  let s := s.displace x q
  let s :=
    if x.upPhase then
      (s.modPosition c p fun q => { q with repair := .replacing, replacement := some i }).takeNamed i
        ⟨c, .replacement, p⟩
    else
      (s.modPosition c p fun q => { q with repair := .replacing, current := some i }).takeNamed i ⟨c, .current, p⟩
  (s.markRepairing c).send (.amendReply x.tag (byteOf p) .ok)

/-- R116: an AMEND that names a lane reaches an answering circuit. -/
def State.amendLane (s : State) (c : SlotId) (x : Circuit) (pos lane : Byte) : State :=
  match s.position c pos.toNat, laneOfByte lane with
  | some q, some i =>
      if q.dropped then s.send (.amendReply x.tag pos .noCircuit)
      else
        match amendAnswer s.side (s.lane i).state with
        | .ok => s.acceptAmend c x pos.toNat q i
        | r => s.send (.amendReply x.tag pos r)
  | _, _ => s.send (.amendReply x.tag pos .noCircuit)

/-- R122: an AMEND without a lane narrows the position of an answering circuit. -/
def State.amendNarrow (s : State) (c : SlotId) (p : Nat) : State :=
  match s.position c p with
  | none => s
  | some q => if q.dropped then s else s.dropPosition c p

/-- AMEND is taken (R44, R116, R122; log entry 16 for an origin record). -/
def State.takeAmend (s : State) (t : Tag) (pos : Byte) (lane : Option Byte) : State :=
  match s.matchTag t with
  | none => s.send (.amendReply t pos .noCircuit)
  | some (c, x) =>
      if x.state = .closing then s.send (.amendReply t pos .noCircuit)
      else
        match x.role with
        | .origin => s
        | .answer =>
            match lane with
            | none => s.amendNarrow c pos.toNat
            | some l => s.amendLane c x pos l

/-- AMEND (R116). -/
def execAmend (seq ack : Seq) (tag : Tag) (pos : Byte) (lane : Option Byte) (s : State) : Out :=
  .next (s.receive seq ack fun s => s.takeAmend tag pos lane)

/-! ### AMEND_REPLY (R117) -/

/-- R117: OK for a spare that is still named: it trains, as the replacement in the UP phase, as the current lane in the
setup phase. -/
def State.spareAccepted (s : State) (c : SlotId) (x : Circuit) (p : Nat) (i : LaneId) : State :=
  if x.upPhase then (s.modPosition c p fun q => { q with repair := .replacing }).startRun i
  else
    let s := s.modPosition c p fun q => { q with repair := .replacing, current := some i, replacement := none }
    (s.modLane i fun l => { l with place := l.place.map fun pl => { pl with role := .current } }).startRun i

/-- R117: a spare that is still named returns to the pool. -/
def State.returnSpare (s : State) (e : PoolEnd) : Option LaneId → State
  | none => s
  | some i => (s.unname i).leaveAll [i] false e

/-- R117: the reply to the AMEND of a PROPOSED position. -/
def State.amendReplied (s : State) (c : SlotId) (x : Circuit) (p : Nat) (spare : Option LaneId) (r : AmendResult) :
    State :=
  match r, spare with
  | .ok, some i => s.spareAccepted c x p i
  | .ok, none => s.pick c p
  | .laneConflict, _ => (s.returnSpare .head spare).pick c p
  | .laneUnavailable, _ => (s.returnSpare .tail spare).pick c p
  | .noCircuit, _ => (s.returnSpare .head spare).exhaust c p

/-- AMEND_REPLY is taken (R44, R117). -/
def State.takeAmendReply (s : State) (t : Tag) (pos : Byte) (r : AmendResult) : State :=
  match s.matchTag t with
  | none => s
  | some (c, x) =>
      if x.live = false ∨ x.role = .answer then s
      else
        match s.position c pos.toNat with
        | none => s
        | some q => if q.repair = .proposed then s.amendReplied c x pos.toNat q.replacement r else s

/-- AMEND_REPLY (R117). -/
def execAmendReply (seq ack : Seq) (tag : Tag) (pos : Byte) (result : AmendResult) (s : State) : Out :=
  .next (s.receive seq ack fun s => s.takeAmendReply tag pos result)

/-! ### CLOSE and CLOSED (R41 to R44) -/

/-- CLOSE is taken (R42 to R44): an unknown tag is answered CLOSED; a CLOSING circuit completes; any other ends, and
the entry of a PROPOSED one leaves the queue (R64). -/
def State.takePeerClose (s : State) (t : Tag) (r : CloseReason) : State :=
  match s.matchTag t with
  | none => s.send (.closed t)
  | some (c, x) =>
      match x.state with
      | .closing => (s.completeClose c).send (.closed t)
      | .proposed => (s.endByPeer c r).dropEntryOfSlot c
      | _ => s.endByPeer c r

/-- CLOSE (R42). -/
def execClose (seq ack : Seq) (tag : Tag) (reason : CloseReason) (s : State) : Out :=
  .next (s.receive seq ack fun s => s.takePeerClose tag reason)

/-- CLOSED is taken (R41, R44). -/
def State.takeClosed (s : State) (t : Tag) : State :=
  match s.matchTag t with
  | none => s
  | some (c, x) => if x.state = .closing then s.completeClose c else s

/-- CLOSED (R41). -/
def execClosed (seq ack : Seq) (tag : Tag) (s : State) : Out :=
  .next (s.receive seq ack fun s => s.takeClosed tag)

/-! ### FENCE and UNFENCE (R13, R14) -/

/-- R13: the effect of a FENCE for a lane whose peer fence is clear. -/
def State.fencedByPeer (s : State) (i : LaneId) : State :=
  let st := (s.lane i).state
  let s := s.setPeerFence i
  match st with
  | .free => s.quarantine i
  | .claimed => s.expel i none
  | .training => s.expel i none
  | .qualified => s.expel i none
  | _ => s

/-- FENCE is taken (R13); one above T23 is discarded (R127). -/
def State.takeFence (s : State) (lane : Byte) : State :=
  match laneOfByte lane with
  | none => s
  | some i => if (s.lane i).peerFence then s else s.fencedByPeer i

/-- FENCE (R13). The reason is not stored. -/
def execFence (seq ack : Seq) (lane : Byte) (_reason : FenceReason) (s : State) : Out :=
  .next (s.receive seq ack fun s => s.takeFence lane)

/-- R14: the effect of an UNFENCE for a lane whose peer fence is set. -/
def State.unfencedByPeer (s : State) (i : LaneId) : State :=
  let s := s.modLane i fun l => { l with peerFence := false }
  if (s.lane i).state = .quarantined ∧ (s.lane i).localFence = false then s.freeLane .tail i else s

/-- UNFENCE is taken (R14); one above T23 is discarded (R127). -/
def State.takeUnfence (s : State) (lane : Byte) : State :=
  match laneOfByte lane with
  | none => s
  | some i => if (s.lane i).peerFence then s.unfencedByPeer i else s

/-- UNFENCE (R14). -/
def execUnfence (seq ack : Seq) (lane : Byte) (s : State) : Out :=
  .next (s.receive seq ack fun s => s.takeUnfence lane)

/-! ### FRAME_TRANSMIT (R126) -/

/-- R126: the oldest waiting frame leaves the list and begins to be sent. -/
def State.beginFrame (s : State) : State :=
  match s.txFrames with
  | [] => s
  | f :: rest => { s with txFrames := rest, sending := some f }

/-- FRAME_TRANSMIT (R126). With no frame waiting the line stays idle. -/
def execFrameTransmit (s : State) : Out := .next s.beginFrame

end Sys2Proof.Machine
end

