-- ==== Sys2Proof/Machine/Ticks.lean ====
section
/-! DEFINITION. Sys2Proof/Machine/Ticks.lean: the meanings of the control tick and the sweep tick, and of the rows that
name a tick by what happens at it (R12, R61, R97 to R99, R115, R134 to R136, R139, R145). -/

namespace Sys2Proof.Machine

open Sys2Proof

/-- A timer that runs. -/
def Timer.runs : Timer → Bool
  | .running _ => true
  | .stopped => false

/-! ### The control tick (R134 to R136, R139, R145) -/

/-- R135 step 3: every outstanding message is handed to the transmitter again, oldest first. -/
def State.resend (s : State) : State :=
  s.outstanding.foldl (fun s m => s.hand m.1 (.msg m.2)) (s.dropFrames (s.outstanding.map Prod.fst))

/-- R135 step 3: the resend with its count and its entry. -/
def State.retransmitAll (s : State) : State :=
  let n := s.outstanding.length
  let s := { s.resend with mark := false, retransmissions := satSucc 65535 s.retransmissions }
  s.log .tccRetransmit none none (detail2 (byteOf s.retryCount) (byteOf n))

/-- R136: the idle ACK, which carries seq 0 (R126), and the flag cleared. -/
def State.idleAck (s : State) : State :=
  let s := if s.sentSinceTick then s else s.hand 0 .ack
  { s with sentSinceTick := false }

/-- R135, R136: an UP tick that found the peer not silent. -/
def State.retryTick (s : State) : State :=
  if s.outstanding = [] then { s with mark := false }.idleAck
  else if s.mark = false then { s with mark := true }.idleAck
  else
    let s := { s with retryCount := s.retryCount + 1 }
    if s.params.retryLimit < s.retryCount then s.goLost .tccRetry else s.retransmitAll.idleAck

/-- R134: an UP tick. -/
def State.upTick (s : State) : State :=
  let s := { s with silenceCount := s.silenceCount + 1 }
  if s.params.silenceLimit ≤ s.silenceCount then s.goLost .peerSilent else s.retryTick

/-- R134: a control tick: the timer starts again, and the tick does the work of the trunk state. -/
def State.controlTicked (s : State) : State :=
  let s := { s with controlTimer := .running s.params.controlTick }
  match s.trunk with
  | .down => s
  | .joining => s.joinTick
  | .up => s.upTick.finish
  | .lost => s.beginJoining.joinTick

/-- R134: the silence count reaches its limit at the coming tick. -/
def State.silentNext (s : State) : Bool := s.trunk = .up ∧ s.params.silenceLimit ≤ s.silenceCount + 1

/-- R135: the coming tick finds the oldest message marked. -/
def State.resendNext (s : State) : Bool :=
  s.trunk = .up ∧ s.silentNext = false ∧ s.outstanding ≠ [] ∧ s.mark = true

/-- R135 step 2: the retry count passes its limit at the coming tick. -/
def State.retryNext (s : State) : Bool := s.resendNext = true ∧ s.params.retryLimit < s.retryCount + 1

/-- A control tick that comes only where `due` holds (log entries 5 and 6). -/
def State.controlTickIf (s : State) (due : Bool) : State :=
  if s.controlTimer.runs = true ∧ due = true then s.controlTicked else s

/-- CONTROL_TICK (R134). A stopped timer does not expire (log entry 5). -/
def execControlTick (s : State) : Out := .next (s.controlTickIf true)

/-- RETRANSMIT (R135): the control tick at which the outstanding messages are resent. -/
def execRetransmit (s : State) : Out := .next (s.controlTickIf (s.resendNext && !s.retryNext))

/-- TCC_RETRY (R135): the control tick at which the retry count passes its limit. -/
def execTccRetry (s : State) : Out := .next (s.controlTickIf s.retryNext)

/-- PEER_SILENT (R134): the control tick at which the silence count reaches its limit. -/
def execPeerSilent (s : State) : Out := .next (s.controlTickIf s.silentNext)

/-! ### The sweep tick (R97) -/

/-- R12: the local fence of a lane whose age has reached 0 is released. -/
def State.release (s : State) (i : LaneId) : State :=
  let s := s.clearLocalFence i
  let s := s.log .laneReleased (some i) none (BitVec.ofNat 16 (s.lane i).failCount)
  if (s.lane i).state = .quarantined ∧ (s.lane i).peerFence = false then s.freeLane .tail i else s

/-- R12: a lane's quarantine age counts down. -/
def State.ageLane (s : State) (i : LaneId) : State :=
  match (s.lane i).localFence, (s.lane i).age with
  | true, some n => if n ≤ 1 then s.release i else s.modLane i fun l => { l with age := some (n - 1) }
  | _, _ => s

/-- R12: the quarantine ages are counted, in ascending lane order, while the trunk is UP. -/
def State.countAges (s : State) : State :=
  if s.trunk = .up then (indexes 24).foldl State.ageLane s else s

/-- R115: the repair patience of a position of the seeking list counts down; at 0 the repair is exhausted. A position
that has left the list meanwhile is passed by. -/
def State.countSeek (s : State) (cp : SlotId × Nat) : State :=
  if cp ∈ s.seeking then
    match s.position cp.1 cp.2 with
    | none => s
    | some q =>
        match q.patience with
        | none => s
        | some n =>
            if n ≤ 1 then
              { s.modPosition cp.1 cp.2 fun q => { q with patience := none } with
                seeking := s.seeking.filter fun o => decide (o ≠ cp) }.exhaust cp.1 cp.2
            else s.modPosition cp.1 cp.2 fun q => { q with patience := some (n - 1) }
  else s

/-- R115: the repair patience of every SEEKING position, in list order. -/
def State.countSeeking (s : State) : State := s.seeking.foldl State.countSeek s

/-- R98: the ACTIVE lanes, ascending. -/
def State.activeLanes (s : State) : List LaneId := (indexes 24).filter fun i => decide ((s.lane i).state = .active)

/-- R98: a health request for an ACTIVE lane, or a missed sweep where one is queued for it already. -/
def State.healthRequest (s : State) (i : LaneId) : State :=
  if s.dwellQueued i then s.modLane i fun l => { l with missed := satSucc 255 l.missed }
  else s.requestDwell i .health

/-- R98, R99: the health requests of a tick, and the entry where lanes missed. -/
def State.sweep (s : State) : State :=
  let missed := s.activeLanes.filter s.dwellQueued
  let s := s.activeLanes.foldl State.healthRequest s
  if missed = [] then s else s.log .sweepMissed none none (BitVec.ofNat 16 missed.length)

/-- R97: the sweep count and the timer at a tick. -/
def State.sweepBegin (s : State) : State :=
  { s with sweepCount := s.sweepCount + 1, sweepTimer := .running s.params.sweepInterval }

/-- R97: a tick up to the service of the seeking list with what the releases freed. -/
def State.sweepReleased (s : State) : State := s.sweepBegin.countAges.reportGrowth

/-- R97: a sweep tick, in its order. -/
def State.swept (s : State) : State := ((s.sweepReleased.countSeeking).countPatience.sweep).finish

/-- A sweep tick that comes only where `due` holds (log entries 5 and 6). -/
def State.sweepTickIf (s : State) (due : Bool) : State :=
  if s.sweepTimer.runs = true ∧ due = true then s.swept else s

/-- SWEEP_TICK (R97). A stopped timer does not expire (log entry 5). -/
def execSweepTick (s : State) : Out := .next (s.sweepTickIf true)

/-- R12: the coming tick releases the lane's local fence. -/
def State.releaseNext (s : State) (i : LaneId) : Bool :=
  s.trunk = .up ∧ (s.lane i).localFence = true ∧ (s.lane i).age.any (· ≤ 1) = true

/-- R61: the coming tick expires the port's entry with this tag. An entry's state does not change in a tick before its
patience is counted. -/
def State.expiresNext (s : State) (h : PortId) (tag : Byte) : Bool :=
  s.queue.any fun e => e.port = h ∧ e.tag = tag ∧ e.slot = none ∧ e.patience ≤ 1

/-- R115: what a tick does to the seeking list before it comes to a position. -/
def State.seekBefore (s : State) (cp : SlotId × Nat) : State :=
  (s.seeking.takeWhile fun o => decide (o ≠ cp)).foldl State.countSeek s

/-- R115: the coming tick exhausts the position's repair. -/
def State.exhaustsNext (s : State) (cp : SlotId × Nat) : Bool :=
  let s := s.sweepReleased.seekBefore cp
  cp ∈ s.seeking ∧ ((s.position cp.1 cp.2).bind (·.patience)).any (· ≤ 1) = true

/-- QUARANTINE_RELEASE (R12): the sweep tick at which the lane's quarantine age reaches 0. -/
def execQuarantineRelease (lane : LaneId) (s : State) : Out := .next (s.sweepTickIf (s.releaseNext lane))

/-- OPEN_EXPIRED (R61): the sweep tick at which the entry's patience reaches 0. -/
def execOpenExpired (port : PortId) (tag : Byte) (s : State) : Out := .next (s.sweepTickIf (s.expiresNext port tag))

/-- SEEK_EXHAUSTED (R115): the sweep tick at which the position's repair patience reaches 0. -/
def execSeekExhausted (slot : SlotId) (pos : Nat) (s : State) : Out :=
  .next (s.sweepTickIf (s.exhaustsNext (slot, pos)))

end Sys2Proof.Machine
end

