-- ==== Sys2Proof/Machine/Measure.lean ====
section
/-! DEFINITION. Sys2Proof/Machine/Measure.lean: the meanings of dwell results and loss-of-lock reports (R74, R75, R85
to R90, R100, R102). -/

namespace Sys2Proof.Machine

open Sys2Proof

/-! ### Training results (R85 to R90) -/

/-- R36: TRAINED for the position a lane fills. -/
def State.sendTrained (s : State) (i : LaneId) (ok : Bool) : State :=
  match (s.lane i).place, s.ownerTag i with
  | some pl, some t => s.send (.trained t (byteOf pl.position) ok)
  | _, _ => s

/-- R88 step 1: the lane's fields at a successful CONFIRM. -/
def Lane.confirmed (p : Params) (best : PresetId) (figure : Byte) (l : Lane) : Lane :=
  { l with preset := some best, lastGood := some best, fom := some figure, applied := some (p.presets.get best) }

/-- R88: success: the lane's fields, TRAINED(OK), and QUALIFIED or ACTIVE by the peer trained flag. -/
def State.trainingSucceeds (s : State) (i : LaneId) (best : PresetId) (figure : Byte) : State :=
  let s := (s.modLane i (Lane.confirmed s.params best figure)).sendTrained i true
  if (s.lane i).peerTrained then s.activate i else s.moveLane i .qualified

/-- R90: the run fails: TRAINED(FAIL), the local fence with its FENCE and entries, and the lane leaves as
QUARANTINED. -/
def State.trainingFails (s : State) (i : LaneId) (figure : Byte) : State :=
  let s := s.sendTrained i false
  (s.setLocalFence i (s.ownerTag i) (.training figure)).expel i none

/-- R88, R89: a CONFIRM result. -/
def State.confirmResult (s : State) (i : LaneId) (r : TrainRec) (figure : Byte) : State :=
  if s.params.qualify ≤ figure.toNat then s.trainingSucceeds i r.current figure
  else if r.attempt < s.params.trainAttempts then s.restartAttempt i (r.attempt + 1)
  else s.trainingFails i figure

/-- R85 to R90: a delivered TRAIN result. -/
def State.trainResult (s : State) (i : LaneId) (figure : Byte) : State :=
  match (s.lane i).training with
  | none => s
  | some r =>
      match r.phase with
      | .confirm => s.confirmResult i r figure
      | _ => (s.modLane i fun l => { l with training := some (r.search figure) }).requestDwell i .train

/-! ### Health results (R100) -/

/-- R100: a health result that strikes: NO_LOCK, or a figure below H. -/
def strikes (p : Params) : DwellOutcome → Bool
  | .noLock => true
  | .fom f => decide (f.toNat < p.hold)

/-- R100: a delivered HEALTH result, judged while the lane is ACTIVE. -/
def State.healthResult (s : State) (i : LaneId) (o : DwellOutcome) : State :=
  if (s.lane i).state ≠ .active then s
  else
    let s := s.modLane i fun l => { l with fom := some (figureOf o) }
    if strikes s.params o then
      if s.params.strikeLimit ≤ (s.lane i).strikes + 1 then s.declareFailing i .strikes (figureOf o)
      else s.modLane i fun l => { l with strikes := l.strikes + 1 }
    else s.modLane i fun l => { l with strikes := 0 }

/-! ### The events -/

/-- R75: a current result goes to the block that asked for it. -/
def State.deliverResult (s : State) (d : Dwell) (o : DwellOutcome) : State :=
  match d.purpose with
  | .train => s.trainResult d.lane (figureOf o)
  | .health => s.healthResult d.lane o

/-- R75: a dwell result: the unit is freed, a current result is delivered, and the grant rule runs. -/
def State.dwellEnds (s : State) (u : UnitId) (d : Dwell) (o : DwellOutcome) : State :=
  let s := State.grantDue { s with units := s.units.set u none }
  (if d.run = (s.lane d.lane).run then s.deliverResult d o else s).finish

/-- DWELL_RESULT (R75). An idle unit has no dwell to end (log entry 5). -/
def execDwellResult (unit : UnitId) (outcome : DwellOutcome) (s : State) : Out :=
  .next
    (match s.unit unit with
    | none => s
    | some d => s.dwellEnds unit d outcome)

/-- LOSS_OF_LOCK (R102): an ACTIVE lane is declared FAILING; any other report is discarded. -/
def execLossOfLock (lane : LaneId) (s : State) : Out :=
  .next (if (s.lane lane).state = .active then (s.declareFailing lane .lockLost 0).finish else s)

end Sys2Proof.Machine
end

