-- ==== Sys2Proof/Machine/Dispatch.lean ====
section
/-! DEFINITION. Sys2Proof/Machine/Dispatch.lean: one arm per command, each one call of its meaning. -/

namespace Sys2Proof.Machine

open Sys2Proof

/-- The effect of a command on everything but the queue. -/
def exec (i : Instr) (s : State) : Host.Outcome State Fault Refusal :=
  match i with
  | .deviceReset side steer present => Sys2Proof.Machine.execDeviceReset side steer present s
  | .configLoadEnd image => Sys2Proof.Machine.execConfigLoadEnd image s
  | .hostArrival port => Sys2Proof.Machine.execHostArrival port s
  | .hostDeparture port => Sys2Proof.Machine.execHostDeparture port s
  | .writeRequest port bytes => Sys2Proof.Machine.execWriteRequest port bytes s
  | .readReply port clocked => Sys2Proof.Machine.execReadReply port clocked s
  | .readNotice port clocked => Sys2Proof.Machine.execReadNotice port clocked s
  | .readStatus port clocked => Sys2Proof.Machine.execReadStatus port clocked s
  | .unknownCommand port code clocked => Sys2Proof.Machine.execUnknownCommand port code clocked s
  | .openCircuit port => Sys2Proof.Machine.execOpenCircuit port s
  | .closeRequest port => Sys2Proof.Machine.execCloseRequest port s
  | .withdraw port => Sys2Proof.Machine.execWithdraw port s
  | .circuitStatus port => Sys2Proof.Machine.execCircuitStatus port s
  | .laneStatus port => Sys2Proof.Machine.execLaneStatus port s
  | .trunkStatus port => Sys2Proof.Machine.execTrunkStatus port s
  | .readLog port => Sys2Proof.Machine.execReadLog port s
  | .readParam port => Sys2Proof.Machine.execReadParam port s
  | .writeParam port => Sys2Proof.Machine.execWriteParam port s
  | .fenceLane port => Sys2Proof.Machine.execFenceLane port s
  | .unfenceLane port => Sys2Proof.Machine.execUnfenceLane port s
  | .restartTrunk port => Sys2Proof.Machine.execRestartTrunk port s
  | .badFrame bytes => Sys2Proof.Machine.execBadFrame bytes s
  | .join seq ack info => Sys2Proof.Machine.execJoin seq ack info s
  | .joinWhileUp seq ack info => Sys2Proof.Machine.execJoinWhileUp seq ack info s
  | .ack seq ack => Sys2Proof.Machine.execAck seq ack s
  | .setup seq ack tag far near cls reqWidth minWidth pairs => Sys2Proof.Machine.execSetup seq ack tag far near cls reqWidth minWidth pairs s
  | .accept seq ack tag slot => Sys2Proof.Machine.execAccept seq ack tag slot s
  | .refuse seq ack tag reason lanes => Sys2Proof.Machine.execRefuse seq ack tag reason lanes s
  | .trained seq ack tag pos ok => Sys2Proof.Machine.execTrained seq ack tag pos ok s
  | .laneFail seq ack tag pos reason => Sys2Proof.Machine.execLaneFail seq ack tag pos reason s
  | .amend seq ack tag pos lane => Sys2Proof.Machine.execAmend seq ack tag pos lane s
  | .amendReply seq ack tag pos result => Sys2Proof.Machine.execAmendReply seq ack tag pos result s
  | .close seq ack tag reason => Sys2Proof.Machine.execClose seq ack tag reason s
  | .closed seq ack tag => Sys2Proof.Machine.execClosed seq ack tag s
  | .fence seq ack lane reason => Sys2Proof.Machine.execFence seq ack lane reason s
  | .unfence seq ack lane => Sys2Proof.Machine.execUnfence seq ack lane s
  | .frameTransmit => Sys2Proof.Machine.execFrameTransmit s
  | .controlTick => Sys2Proof.Machine.execControlTick s
  | .retransmit => Sys2Proof.Machine.execRetransmit s
  | .tccRetry => Sys2Proof.Machine.execTccRetry s
  | .peerSilent => Sys2Proof.Machine.execPeerSilent s
  | .sweepTick => Sys2Proof.Machine.execSweepTick s
  | .quarantineRelease lane => Sys2Proof.Machine.execQuarantineRelease lane s
  | .openExpired port tag => Sys2Proof.Machine.execOpenExpired port tag s
  | .seekExhausted slot pos => Sys2Proof.Machine.execSeekExhausted slot pos s
  | .dwellResult unit outcome => Sys2Proof.Machine.execDwellResult unit outcome s
  | .lossOfLock lane => Sys2Proof.Machine.execLossOfLock lane s
  | .commandByte port code => Sys2Proof.Machine.execCommandByte port code s

end Sys2Proof.Machine
end

