-- ==== Sys2Proof/Safety.lean ====
section
/-! DEFINITION. Sys2Proof/Safety.lean: what a sound state is, in the manual's own terms: the forms that every command
keeps, each a statement about one structure of State, and the words the statements about commands use. -/

namespace Sys2Proof.Machine

open Sys2Proof

/-! ### Forms that every command keeps -/

/-- R5: the pool holds exactly the FREE lanes, none twice. -/
abbrev State.PoolMatches (s : State) : Prop :=
  s.pool.Nodup ∧ ∀ i : LaneId, i ∈ s.pool ↔ (s.lane i).state = .free

/-- `n` numbers that end just before `next`, oldest first: consecutive modulo 2 to the width. -/
def before {w : Nat} (next : BitVec w) (n : Nat) : List (BitVec w) :=
  (List.range n).map fun k => next - BitVec.ofNat w n + BitVec.ofNat w k

/-- R129: the outstanding list holds at most 8 messages with consecutive seq ending before next seq, and the send queue
at most 64. -/
abbrev State.WindowKept (s : State) : Prop :=
  s.outstanding.length ≤ Config.window ∧ s.sendQueue.length ≤ Config.sendCapacity
    ∧ s.outstanding.map Prod.fst = before s.nextSeq s.outstanding.length

/-- R167: the ring holds at most 32 entries with consecutive sequence numbers ending before the next one. -/
abbrev State.LogKept (s : State) : Prop :=
  s.ring.length ≤ 32 ∧ s.ring.map LogEntry.seq = before s.nextEntry s.ring.length

/-- A NOTICES_LOST marker (R159). -/
def Notice.isMarker : Notice → Bool
  | .noticesLost _ => true
  | _ => false

/-- R160: a queue of at most 16 notices whose sixteenth is a marker. -/
abbrev noticesKept (q : List Notice) : Prop :=
  q.length ≤ 16 ∧ (q.length = 16 → q.getLast?.any Notice.isMarker = true)

/-- R148, R160, R165: every port's notice queue is kept, and an ABSENT port holds no notice and no rejected flag. -/
abbrev State.NoticesKept (s : State) : Prop :=
  ∀ h : PortId, noticesKept (s.port h).notices
    ∧ ((s.port h).link = .absent → (s.port h).notices = [] ∧ (s.port h).rejected = false)

/-- R175, R176: every parameter lies in its own range, and the three joint limits hold. -/
structure Params.Legal (p : Params) : Prop where
  sweepInterval : 5 ≤ p.sweepInterval ∧ p.sweepInterval ≤ 250
  controlTick : 1 ≤ p.controlTick ∧ p.controlTick ≤ 20
  qualify : 1 ≤ p.qualify ∧ p.qualify ≤ 255
  hold : p.hold ≤ p.qualify
  strikeLimit : 1 ≤ p.strikeLimit ∧ p.strikeLimit ≤ 7
  lookBeyond : 1 ≤ p.lookBeyond ∧ p.lookBeyond ≤ 6
  trainAttempts : 1 ≤ p.trainAttempts ∧ p.trainAttempts ≤ 3
  release : p.release ≤ 250
  retireLimit : 1 ≤ p.retireLimit ∧ p.retireLimit ≤ 15
  repairPatience : 1 ≤ p.repairPatience ∧ p.repairPatience ≤ 60
  retryLimit : 1 ≤ p.retryLimit ∧ p.retryLimit ≤ 8
  silenceLimit : 2 ≤ p.silenceLimit ∧ p.silenceLimit ≤ 32
  floors : ∀ h : PortId, p.floors.get h ≤ p.ceilings.get h
  ceilings : ∀ h : PortId, 1 ≤ p.ceilings.get h ∧ p.ceilings.get h ≤ 24
  floorSum : p.floorSum ≤ (lanesOf p.enableMask).length
  presets : ∀ i : PresetId, (p.presets.get i).boost ≤ 31
    ∧ (-8 ≤ (p.presets.get i).preTap ∧ (p.presets.get i).preTap ≤ 7)
    ∧ (-8 ≤ (p.presets.get i).postTap ∧ (p.presets.get i).postTap ≤ 7)

/-- R69: no two units measure one lane. -/
abbrev State.UnitsApart (s : State) : Prop :=
  ((indexes 4).filterMap fun u => (s.unit u).map Dwell.lane).Nodup

/-- R71, R72: the dwell queue holds at most one request for each lane, each with the lane's current run number. -/
abbrev State.DwellsCurrent (s : State) : Prop :=
  (s.dwellQueue.map Dwell.lane).Nodup ∧ ∀ d ∈ s.dwellQueue, d.run = (s.lane d.lane).run

/-- Log entry 22: no mark of an event in course stands between events. -/
abbrev State.Unmarked (s : State) : Prop := s.scratch = {}

/-! ### Words of the statements -/

/-- A message from the peer arrives in order while the trunk is UP (R132). -/
abbrev State.InOrder (s : State) (seq : Seq) : Prop := s.trunk = .up ∧ seq = s.expectedSeq

/-- R127, R132, R133: the state in which the owning block finds an accepted message: the silence count is 0, the ack has
been processed and the expected seq has advanced. -/
def State.counted (s : State) (ack : Seq) : State :=
  { State.acknowledge { s with silenceCount := 0 } ack with expectedSeq := s.expectedSeq + 1 }

/-- One message can be placed and goes out at once (R130, R131): the trunk is UP, nothing waits before it and the
window is open. -/
abbrev State.CanSend (s : State) : Prop :=
  s.trunk = .up ∧ s.sendQueue = [] ∧ s.outstanding.length < Config.window

/-- R131: the state after one message has been placed and has gone out. -/
def State.sent (s : State) (m : Msg) : State :=
  { s with
    outstanding := s.outstanding ++ [(s.nextSeq, m)]
    nextSeq := s.nextSeq + 1
    txFrames := s.txFrames ++ [⟨s.nextSeq, s.expectedSeq, .msg m⟩]
    sentSinceTick := true }

/-- The messages placed and not yet acknowledged, oldest first: those outstanding, then those that wait (R130, R131). -/
def State.placed (s : State) : List Msg := s.outstanding.map Prod.snd ++ s.sendQueue

/-- `n` messages can be placed before the send queue is full (R129, R130), and the trunk is UP. -/
abbrev State.Room (s : State) (n : Nat) : Prop :=
  s.trunk = .up ∧ s.sendQueue.length + n ≤ Config.sendCapacity

/-- A lane that leaves its circuit with nothing held against it: no failure reason and no fence (R15 step 4). -/
abbrev Lane.Clean (l : Lane) : Prop := l.failure = none ∧ l.localFence = false ∧ l.peerFence = false

/-- R39, for every position but position `n`: one not dropped has an ACTIVE current lane and repair state NONE. -/
abbrev State.OthersActive (s : State) (x : Circuit) (n : Nat) : Prop :=
  ∀ m q, m ≠ n → x.positions[m]? = some q → q.dropped = false →
    q.repair = .none ∧ ∃ j, q.current = some j ∧ (s.lane j).state = .active

/-- R40: between `s` and `t` the circuit `x` of a slot began a close: it is CLOSING with its reason, and names its lanes
still; they are RELEASING in their places; it seeks no lane; and CLOSE went on the send queue. -/
structure State.CloseBegun (s t : State) (c : SlotId) (x : Circuit) (why : CloseReason) : Prop where
  circuit : ∃ y, t.circuit c = some y ∧ y.state = .closing ∧ y.closeReason = some why ∧ y.tag = x.tag ∧ y.lanes = x.lanes
  lanes : ∀ i ∈ x.lanes, (t.lane i).state = .releasing ∧ (t.lane i).place = (s.lane i).place
  seeking : ∀ cp ∈ t.seeking, cp.1 ≠ c
  placed : ∃ front back, t.placed = s.placed ++ front ++ .close x.tag why :: back

/-- R114, R115: between `s` and `t` the position `n` of the circuit `x`, which stands as `left` and has an attempt left,
made a pick from `pool`, and `before` was placed ahead of it. An empty pool leaves the position SEEKING; the head of any
other is CLAIMED as its replacement lane, proposed with AMEND and counted as an attempt. -/
structure State.Picked (s t : State) (c : SlotId) (n : Nat) (x : Circuit) (left : Position) (pool : List LaneId)
    (before : List Msg) : Prop where
  seeks : pool = [] → t.placed = s.placed ++ before ∧ t.pool = [] ∧ (c, n) ∈ t.seeking
    ∧ ∃ y, t.circuit c = some y ∧ y.positions[n]? = some { left with
        repair := .seeking, replacement := none, patience := some s.params.repairPatience }
  proposes : ∀ j rest, pool = j :: rest →
    t.placed = s.placed ++ before ++ [.amend x.tag (byteOf n) (some (byteOf j.val))] ∧ t.pool = rest
    ∧ (t.lane j).state = .claimed ∧ (t.lane j).place = some ⟨c, .replacement, n⟩
    ∧ ∃ y, t.circuit c = some y ∧ y.positions[n]? = some { left with
        repair := .proposed, replacement := some j, attempts := left.attempts + 1, patience := none }

/-- R149, R165: a transaction whose command byte was taken while its port was ABSENT is void. -/
abbrev State.AbsentVoid (s : State) : Prop :=
  ∀ h tr, (s.port h).transaction = some tr → tr.absent = true → tr.void = true

/-- R34, R116: between `s` and `t` the lane `i`, CLAIMED by a proposal of this side, was yielded: the position it filled
names it no longer, and its circuit stands otherwise in its state. -/
abbrev State.Yielded (s t : State) (i : LaneId) : Prop :=
  ∀ pl z q, (s.lane i).place = some pl → s.circuit pl.slot = some z → z.positions[pl.position]? = some q →
    ∃ z' q', t.circuit pl.slot = some z' ∧ z'.state = z.state ∧ z'.positions[pl.position]? = some q'
      ∧ (pl.role = .current → q'.current = none) ∧ (pl.role = .replacement → q'.replacement = none)

/-- No request waits: no position is SEEKING and no entry is WAITING, so that neither growth of the pool nor a scan
serves anything (R58, R115). -/
abbrev State.NobodyWaits (s : State) : Prop := s.seeking = [] ∧ ∀ e ∈ s.queue, e.slot ≠ none

/-- A port holds a dispatched request of a kind, with this tag and these parameters (R152, R153). -/
abbrev State.Asks (s : State) (h : PortId) (k : ReqKind) (tag : Byte) (params : List Byte) : Prop :=
  (s.port h).link = .working ⟨k, tag, params⟩

/-- R154: the state with the reply to that request in the port's reply slot, and nothing else changed. -/
def State.answered (s : State) (h : PortId) (k : ReqKind) (tag : Byte) (status : Status) (results : List Byte) : State :=
  s.modPort h fun p => { p with link := .replied ⟨k.code, tag, status, results⟩ }

/-- `t` keeps what the blocks' shared work leaves alone in `s`: straps, parameters, timers, the counts of joining and
reception, the queue of commands, every port but its notices, and every lane's last good preset and missed sweeps. -/
structure State.Within (s t : State) : Prop where
  side : t.side = s.side
  loading : t.loading = s.loading
  configPort : t.configPort = s.configPort
  params : t.params = s.params
  arrivals : t.arrivals = s.arrivals
  sweepTimer : t.sweepTimer = s.sweepTimer
  sweepCount : t.sweepCount = s.sweepCount
  sessions : t.sessions = s.sessions
  expectedSeq : t.expectedSeq = s.expectedSeq
  badFrames : t.badFrames = s.badFrames
  retransmissions : t.retransmissions = s.retransmissions
  peerHeard : t.peerHeard = s.peerHeard
  clash : t.clash = s.clash
  peerEnable : t.peerEnable = s.peerEnable
  peerFences : t.peerFences = s.peerFences
  joinMask : t.joinMask = s.joinMask
  joinSent : t.joinSent = s.joinSent
  controlTimer : t.controlTimer = s.controlTimer
  pending : t.pending = s.pending
  port : ∀ h, ∃ ns, t.port h = { s.port h with notices := ns }
  lastGood : ∀ i, (t.lane i).lastGood = (s.lane i).lastGood
  missed : ∀ i, (t.lane i).missed = (s.lane i).missed

end Sys2Proof.Machine
end

