-- ==== Sys2Proof/Certificates/Slice0/Obligations.lean ====
section
/-! DEFINITION. Sys2Proof/Certificates/Slice0/Obligations.lean: the statements for the provers, each with the rules it
formalises. -/

open Sys2Proof Sys2Proof.Machine

/-! ## The machine as a whole -/

/-- The model's form of a block (log entry 1): one step carries out the command at the front of the queue on the state
with the queue's rest; an empty queue idles. Every command leaves a next state, and none touches the queue. -/
def Obligations.StepTakesFront : Prop :=
  ∀ (c : Instr) (rest : List Instr) (s : State),
    (s.pending = c :: rest → step s = exec c { s with pending := rest }) ∧ (s.pending = [] → step s = .next s)
    ∧ ∃ t, exec c s = .next t ∧ t.pending = s.pending

/-- R174, R148, R97, R138, R175: outside device reset the straps hold, the sweep count moves at a sweep tick alone, the
session count at a JOIN alone, and a parameter at the load's end or a WRITE_PARAM alone. -/
def Obligations.CountsMoveAtTheirEvents : Prop :=
  ∀ (c : Instr) (s t : State), exec c s = .next t → (∀ side steer present, c ≠ .deviceReset side steer present) →
    t.side = s.side ∧ (∀ h, (t.port h).steering = (s.port h).steering)
    ∧ (t.sweepCount ≠ s.sweepCount → c = .sweepTick ∨ (∃ i, c = .quarantineRelease i) ∨ (∃ h g, c = .openExpired h g)
      ∨ ∃ d p, c = .seekExhausted d p)
    ∧ (t.sessions ≠ s.sessions → ∃ q a j, c = .join q a j ∨ c = .joinWhileUp q a j)
    ∧ (t.params ≠ s.params → (∃ m, c = .configLoadEnd m) ∨ ∃ h, c = .writeParam h)

/-- R1, R107: nothing clears the last good preset, and no missed sweeps count falls, but device reset. -/
def Obligations.LaneHistoryKept : Prop :=
  ∀ (c : Instr) (s t : State) (i : LaneId), exec c s = .next t → (∀ side steer present, c ≠ .deviceReset side steer present) →
    (s.lane i).missed ≤ 255 →
    ((s.lane i).lastGood ≠ none → (t.lane i).lastGood ≠ none) ∧ (s.lane i).missed ≤ (t.lane i).missed

/-- What the commands of the blocks leave alone, whatever else they do: straps, load, parameters, timers, counts,
joining state, ports but for their notices, and each lane's last good preset and missed sweeps. Named beside each group
are the fields of these that the manual has it write: the expected seq for a sequenced message (R132), the port's slots
and cursor, the arrival counter, the parameters and a join's state for a request (R154, R56, R172, R182, R146), a
CONFIRM's last good preset for a dwell result (R88), the timer, the resend count and a join's state for a control tick
(R134 to R139), the timer, the sweep count and missed sweeps for a sweep tick (R97, R98). -/
def Obligations.CommandsKeepTheRest : Prop :=
  ∀ (c : Instr) (s t : State), exec c s = .next t →
    (∀ m q a, c = Msg.command q a m → State.Within { s with expectedSeq := t.expectedSeq } t)
    ∧ (∀ h, c ∈ [.openCircuit h, .closeRequest h, .withdraw h, .circuitStatus h, .laneStatus h, .trunkStatus h,
          .readLog h, .readParam h, .writeParam h, .fenceLane h, .unfenceLane h, .restartTrunk h] →
        (c ≠ .openCircuit h → t.arrivals = s.arrivals)
        ∧ (c ≠ .restartTrunk h → t.peerHeard = s.peerHeard ∧ t.clash = s.clash ∧ t.peerEnable = s.peerEnable
            ∧ t.peerFences = s.peerFences ∧ t.joinMask = s.joinMask ∧ t.joinSent = s.joinSent)
        ∧ ∃ link cursor, (c ≠ .readLog h → cursor = (s.port h).cursor) ∧
            State.Within
              (State.modPort { s with
                params := t.params, arrivals := t.arrivals, peerHeard := t.peerHeard, clash := t.clash,
                peerEnable := t.peerEnable, peerFences := t.peerFences, joinMask := t.joinMask, joinSent := t.joinSent }
                h fun p => { p with link := link, cursor := cursor }) t)
    ∧ (∀ i, c = .lossOfLock i → s.Within t)
    ∧ (∀ u o d, c = .dwellResult u o → s.unit u = some d →
        State.Within (s.modLane d.lane fun l => { l with lastGood := (t.lane d.lane).lastGood }) t)
    ∧ (c ∈ [.controlTick, .retransmit, .tccRetry, .peerSilent] →
        State.Within { s with
          controlTimer := t.controlTimer, retransmissions := t.retransmissions, peerHeard := t.peerHeard,
          clash := t.clash, peerEnable := t.peerEnable, peerFences := t.peerFences, joinMask := t.joinMask,
          joinSent := t.joinSent } t)
    ∧ (c = .sweepTick ∨ (∃ i, c = .quarantineRelease i) ∨ (∃ h g, c = .openExpired h g) ∨ (∃ d p, c = .seekExhausted d p) →
        State.Within { s with
          sweepTimer := t.sweepTimer, sweepCount := t.sweepCount,
          lanes := ⟨(indexes 24).map fun i => { s.lane i with missed := (t.lane i).missed }, by simp [indexes]⟩ } t)

/-! ## Reset and load -/

/-- R177 with the reset columns of R1, R22, R129, R148 and the reset values of R50, R69, R71, R97, R109, R137, R138,
R167, R175: what DEVICE_RESET leaves, for every level on the pins. -/
def Obligations.ResetValues : Prop :=
  ∀ (side : Side) (steer present : Table 6 Bool) (s : State), ∃ t, exec (.deviceReset side steer present) s = .next t
    ∧ t.side = side ∧ t.loading = true ∧ t.params = {}
    ∧ (∀ i, t.lane i = { t.lane i with
        state := .offline, place := none, preset := none, lastGood := none, fom := none, strikes := 0,
        localFence := false, peerFence := false, failure := none, age := none, failCount := 0, missed := 0, run := 0,
        peerTrained := false, training := none })
    ∧ t.pool = [] ∧ (∀ c, t.slots.get c = ⟨0, none⟩) ∧ t.queue = [] ∧ t.arrivals = 0
    ∧ (∀ u, t.unit u = none) ∧ t.dwellQueue = [] ∧ t.sweepTimer = .stopped ∧ t.sweepCount = 0 ∧ t.seeking = []
    ∧ t.trunk = .down ∧ t.lastLoss = none ∧ t.sessions = 0 ∧ t.peerEnable = none ∧ t.peerFences = none
    ∧ t.sendQueue = [] ∧ t.outstanding = [] ∧ t.nextSeq = 0 ∧ t.expectedSeq = 0 ∧ t.mark = false ∧ t.retryCount = 0
    ∧ t.silenceCount = 0 ∧ t.sentSinceTick = false ∧ t.badFrames = 0 ∧ t.retransmissions = 0
    ∧ t.controlTimer = .stopped ∧ t.txFrames = [] ∧ t.ring = [] ∧ t.nextEntry = 0
    ∧ ∀ h, (t.port h).link = (if present.get h then .ready else .absent) ∧ (t.port h).notices = []
        ∧ (t.port h).rejected = false ∧ (t.port h).steering = steer.get h

/-- The forms that every command keeps hold after device reset, for every level on the pins (R5, R69, R71, R129, R149,
R160, R167, R175), and the model's own marks are clear (log entry 22, not the manual's). -/
def Obligations.ResetMeetsForms : Prop :=
  ∀ (side : Side) (steer present : Table 6 Bool), ∀ s, s = State.afterReset side steer present →
    s.PoolMatches ∧ s.WindowKept ∧ s.LogKept ∧ s.NoticesKept ∧ s.params.Legal ∧ s.UnitsApart ∧ s.DwellsCurrent
      ∧ s.AbsentVoid ∧ s.Unmarked

/-- R178, R179, R180: a load that gets no response, a bad header or a bad check ends with every parameter at its default
and one CONFIG_DEFAULTED entry. A good image sets the parameters by its records in image order, an out-of-range value
leaving the default and an unknown id nothing; the three joint checks follow, and CONFIG_LOADED ends the entries with
the record count. In every case the load ends, every cursor names the oldest entry, the trunk goes JOINING with the mask
just loaded, and both timers start. R177: the configuration port has issued the read command and three address bytes of
0x00, and has clocked in the header and, behind a good one, the records and the check. -/
def Obligations.ConfigLoadEnds : Prop :=
  ∀ (image : List Byte) (s : State), s.loading = true → ∃ t, exec (.configLoadEnd image) s = .next t
    ∧ t.loading = false ∧ t.trunk = .joining ∧ t.joinMask = some t.params.enableMask ∧ t.peerHeard = false
    ∧ t.clash = false ∧ t.sweepTimer = .running t.params.sweepInterval
    ∧ t.controlTimer = .running t.params.controlTick ∧ (∀ h, (t.port h).cursor = t.oldestEntry)
    ∧ t.configPort.sent = [0x03, 0x00, 0x00, 0x00]
    ∧ ((List.range 4).map (imageByte image) = [0xFF, 0xFF, 0xFF, 0xFF] →
        t.params = {} ∧ t.ring = (s.log .configDefaulted none none 1).ring ∧ t.configPort.clocked = 6)
    ∧ ((List.range 4).map (imageByte image) ≠ [0xFF, 0xFF, 0xFF, 0xFF] →
        ((List.range 4).map (imageByte image) ≠ [0xA5, 0x5A, 0xC3, 0x3C] ∨ imageByte image 4 ≠ 0x01
            ∨ 64 < (imageByte image 5).toNat →
          t.params = {} ∧ t.ring = (s.log .configDefaulted none none 2).ring ∧ t.configPort.clocked = 6)
        ∧ ((List.range 4).map (imageByte image) = [0xA5, 0x5A, 0xC3, 0x3C] → imageByte image 4 = 0x01 →
          (imageByte image 5).toNat ≤ 64 →
          ∀ n, n = 6 + 4 * (imageByte image 5).toNat → t.configPort.clocked = n + 2
          ∧ (crc ((List.range n).map (imageByte image)) ≠ halfOf (imageByte image n) (imageByte image (n + 1)) →
            t.params = {} ∧ t.ring = (s.log .configDefaulted none none 3).ring)
          ∧ (crc ((List.range n).map (imageByte image)) = halfOf (imageByte image n) (imageByte image (n + 1)) →
            t.ring.getLast?.map (fun e => (e.kind, e.detail))
              = some (.configLoaded, BitVec.ofNat 16 (imageByte image 5).toNat)
            ∧ ∀ (records : List (Byte × Mask)) (p : Params) (floors : Table 6 Nat),
              records = (List.range (imageByte image 5).toNat).map (fun j => (imageByte image (6 + 4 * j),
                maskOf (imageByte image (7 + 4 * j)) (imageByte image (8 + 4 * j)) (imageByte image (9 + 4 * j)))) →
              p = records.foldl (fun (p : Params) r => match paramOf r.1 with
                | none => p
                | some id => p.write id (if id.inRange r.2 then r.2 else Params.read {} id)) {} →
              (∀ h, floors.get h = if p.ceilings.get h < p.floors.get h then 0 else p.floors.get h) →
              t.params = { p with
                  hold := if p.qualify < p.hold then min p.qualify 64 else p.hold
                  floors := if (lanesOf p.enableMask).length < ((indexes 6).map floors.get).sum then Table.fill 6 0
                    else floors }
              ∧ ((∀ r ∈ records, ∃ id, paramOf r.1 = some id ∧ id.inRange r.2 = true) → p.hold ≤ p.qualify →
                floors = p.floors → ((indexes 6).map floors.get).sum ≤ (lanesOf p.enableMask).length →
                t.ring = (s.log .configLoaded none none (BitVec.ofNat 16 records.length)).ring))))

/-! ## Forms that every command keeps -/

/-- R5: from every state in which the pool holds exactly the FREE lanes, none twice, a step leaves one. -/
def Obligations.StepKeepsPool : Prop :=
  ∀ s t : State, s.PoolMatches → step s = .next t → t.PoolMatches

/-- R129, R167: a step keeps the window (at most 8 outstanding with consecutive seq, at most 64 waiting) and the fault
log's ring (at most 32 entries with consecutive sequence numbers), and leaves the model's own marks clear (log entry
22). -/
def Obligations.StepKeepsBuffers : Prop :=
  ∀ s t : State, step s = .next t →
    (s.WindowKept → t.WindowKept) ∧ (s.LogKept → t.LogKept) ∧ (s.Unmarked → t.Unmarked)

/-- R148, R149, R160, R165: a step keeps every port's notice queue in form, and an ABSENT port empty; and a transaction
whose command byte came while its port was ABSENT stays void. -/
def Obligations.StepKeepsPorts : Prop :=
  ∀ s t : State, step s = .next t → (s.NoticesKept → t.NoticesKept) ∧ (s.AbsentVoid → t.AbsentVoid)

/-- R175, R176, R179, R182: a step keeps every parameter in range and the three joint limits true, the load's end and
every write included. -/
def Obligations.StepKeepsParameters : Prop :=
  ∀ s t : State, s.params.Legal → step s = .next t → t.params.Legal

/-- R69, R71, R72, R76: a step keeps the units on different lanes, and the dwell queue to one current request a lane. -/
def Obligations.StepKeepsDwells : Prop :=
  ∀ s t : State, s.UnitsApart → s.DwellsCurrent → step s = .next t → t.UnitsApart ∧ t.DwellsCurrent

/-! ## Frames on the pair -/

/-- R126 to R128: the receiver judges what a sender puts on the line as that frame, whatever bytes without a delimiter
came before it. -/
def Obligations.FrameIsReceivedAsSent : Prop :=
  ∀ (noise : List Byte) (f : Frame), delimiter ∉ noise → (∀ m, f.body = .msg m → m.fits = true) →
    judge (noise ++ f.bytes) = .good f

/-- R126, R127, R144, R145: a bad frame is counted in every trunk state but DOWN, to 65535, completes a frame of which a
part had arrived at the loss, and changes nothing else; the oldest frame of the transmitter's list begins to be sent,
and an empty list leaves the line idle. R3: a lane's transmitter sends data in ACTIVE and FAILING, the training pattern
in CLAIMED, TRAINING and QUALIFIED, and the idle pattern in the other states. R10: a lane is bound in the crosspoint to
the host lane of its position exactly while it is ACTIVE or FAILING. -/
def Obligations.LineEvents : Prop :=
  ∀ (bytes : List Byte) (s : State),
    (judge bytes = .bad →
      (s.trunk = .down → exec (.badFrame bytes) s = .next s)
      ∧ (s.trunk ≠ .down → exec (.badFrame bytes) s
        = .next { s with badFrames := min 65535 (s.badFrames + 1), partFrame := false }))
    ∧ (s.txFrames = [] → exec .frameTransmit s = .next s)
    ∧ (∀ f rest, s.txFrames = f :: rest → exec .frameTransmit s = .next { s with txFrames := rest, sending := some f })
    ∧ ∀ i : LaneId,
      ((s.lane i).state = .active ∨ (s.lane i).state = .failing → (s.lane i).state.transmits = .data
        ∧ ∀ pl x q, (s.lane i).place = some pl → s.circuit pl.slot = some x → x.positions[pl.position]? = some q →
            s.boundTo i = some (x.near, q.hostLane))
      ∧ ((s.lane i).state = .claimed ∨ (s.lane i).state = .training ∨ (s.lane i).state = .qualified →
          (s.lane i).state.transmits = .trainingPattern ∧ s.boundTo i = none)
      ∧ ((s.lane i).state = .offline ∨ (s.lane i).state = .free ∨ (s.lane i).state = .releasing
            ∨ (s.lane i).state = .quarantined →
          (s.lane i).state.transmits = .idle ∧ s.boundTo i = none)

/-! ## Host ports -/

/-- R150: the layout of the port status byte. -/
def Obligations.StatusByteLayout : Prop :=
  ∀ (s : State) (h : PortId),
    ((s.statusByte h).toNat % 4 = match (s.port h).link with
      | .absent => 0
      | .ready => 1
      | .working _ => 2
      | .replied _ => 3)
    ∧ ((s.statusByte h).getLsbD 2 = true ↔ (s.port h).notices ≠ [])
    ∧ (s.statusByte h).getLsbD 3 = (s.port h).rejected ∧ (s.statusByte h).getLsbD 4 = s.loading
    ∧ (s.statusByte h).getLsbD 5 = false ∧ (s.statusByte h).getLsbD 6 = false ∧ (s.statusByte h).getLsbD 7 = false

/-- R162: the attention line is asserted exactly while the port is REPLIED or holds a notice, and an ABSENT port, which
holds neither, releases it. -/
def Obligations.AttentionLine : Prop :=
  ∀ (s : State) (h : PortId), s.NoticesKept →
    ((s.port h).attn = true ↔ (∃ r, (s.port h).link = .replied r) ∨ (s.port h).notices ≠ [])
    ∧ ((s.port h).link = .absent → (s.port h).attn = false)

/-- R149, R150, R158, R161: the command byte shifts the status byte out and fixes the frame of READ_REPLY and
READ_NOTICE: the reply, the head notice, or the zero-length frame. Nothing else changes; a transaction still open is
replaced (log entry 9). That the command byte also takes a count for READ_STATUS is the model's choice of log entry 10:
R149 fixes only the other two. That status byte and frame are taken in one event is log entry 35's. -/
def Obligations.CommandByteFixesFrame : Prop :=
  ∀ (s : State) (h : PortId) (code : Byte), ∃ frame,
    exec (.commandByte h code) s = .next (s.modPort h fun p =>
      { p with transaction := some ⟨code, decide (p.link = .absent), frame, decide (p.link = .absent)⟩,
               shiftOut := [s.statusByte h] })
    ∧ (code = 0x5B → ∀ r, (s.port h).link = .replied r → frame = r.bytes)
    ∧ (code = 0x5B → (∀ r, (s.port h).link ≠ .replied r) → frame = [0])
    ∧ (code = 0x5C → ∀ n rest, (s.port h).notices = n :: rest → frame = n.bytes)
    ∧ (code = 0x5C → (s.port h).notices = [] → frame = [0])
    ∧ (code = 0x5D → frame = [byteOf (s.port h).notices.length])

/-- R151, R153: a WRITE_REQUEST's end: by the port state and the frame, a reply of the port controller's own, a
dispatched request, or the rejected flag. Nothing else changes. The transaction began on a present port, as every one
that is not void did (StepKeepsPorts). -/
def Obligations.WriteRequestJudged : Prop :=
  ∀ (s : State) (h : PortId) (bytes : List Byte) (tr : Transaction),
    (s.port h).transaction = some tr → tr.code = 0x5A → tr.void = false → tr.absent = false →
    ∃ link rejected,
      exec (.writeRequest h bytes) s = .next (s.modPort h fun p =>
        { p with link := link, rejected := rejected, transaction := none,
                 shiftOut := p.shiftOut ++ List.replicate bytes.length 0 })
      ∧ ((s.port h).link = .absent → link = .absent ∧ rejected = (s.port h).rejected)
      ∧ ((∃ r, (s.port h).link = .working r) ∨ (∃ r, (s.port h).link = .replied r) →
          link = (s.port h).link ∧ rejected = true)
      ∧ ((s.port h).link = .ready → completeFrame bytes = none → link = .ready ∧ rejected = true)
      ∧ ∀ f, (s.port h).link = .ready → completeFrame bytes = some f → rejected = (s.port h).rejected
          ∧ (s.loading = true → link = .replied ⟨f.kind, f.tag, .notReady, []⟩)
          ∧ (s.loading = false → (∀ k, reqKindOf f.kind = some k → f.length ≠ k.length) →
              link = .replied ⟨f.kind, f.tag, .badRequest, []⟩)
          ∧ ∀ k, s.loading = false → reqKindOf f.kind = some k → f.length = k.length →
              (k.steeringOnly = true → (s.port h).steering = false →
                link = .replied ⟨f.kind, f.tag, .notPermitted, []⟩)
              ∧ (k.steeringOnly = false ∨ (s.port h).steering = true → link = .working ⟨k, f.tag, f.params⟩)

/-- R158, R161: the end of the three reads. What was read to its last byte leaves its slot or queue, what was cut short
stays, and a zero-length frame changes nothing; READ_STATUS clears the rejected flag and, where no notice came
meanwhile, shifts out the number of notices held, for every value the count's open moment can have (log entry 10). The
transaction began on a present port, as every one that is not void did (StepKeepsPorts). -/
def Obligations.ReadsEnd : Prop :=
  ∀ (s : State) (h : PortId) (n : Nat) (tr : Transaction), (s.port h).transaction = some tr → tr.void = false →
    tr.absent = false →
    (tr.code = 0x5B → ∃ link,
      exec (.readReply h n) s = .next (s.modPort h fun p =>
        { p with link := link, transaction := none, shiftOut := p.shiftOut ++ shifted tr.frame n })
      ∧ (∀ r, (s.port h).link = .replied r → tr.frame = r.bytes →
          (r.bytes.length ≤ n → link = .ready) ∧ (n < r.bytes.length → link = .replied r))
      ∧ (tr.frame = [0] → link = (s.port h).link))
    ∧ (tr.code = 0x5C → ∃ notices,
      exec (.readNotice h n) s = .next (s.modPort h fun p =>
        { p with notices := notices, transaction := none, shiftOut := p.shiftOut ++ shifted tr.frame n })
      ∧ (∀ m rest, (s.port h).notices = m :: rest → tr.frame = m.bytes →
          (m.bytes.length ≤ n → notices = rest) ∧ (n < m.bytes.length → notices = m :: rest))
      ∧ (tr.frame = [0] → notices = (s.port h).notices))
    ∧ (tr.code = 0x5D → tr.frame = [byteOf (s.port h).notices.length] →
      exec (.readStatus h n) s = .next (s.modPort h fun p =>
        { p with rejected := false, transaction := none,
                 shiftOut := p.shiftOut ++ shifted [byteOf (s.port h).notices.length] n }))

/-- R149, R165: a transaction whose command byte was taken while the port was ABSENT, or whose host departed since (log
entry 27), changes nothing at its end but that it is over. What it shifts out under a defined code is open where the
port was ABSENT at the command byte (log entry 11); a departure leaves the frame that was fixed (log entry 27). One with
an undefined command byte shifts out 0x00 and has no effect, in every port state. -/
def Obligations.VoidAndUnknownTransactions : Prop :=
  ∀ (s : State) (h : PortId) (n : Nat) (bytes : List Byte) (code : Byte) (tr : Transaction),
    (s.port h).transaction = some tr →
    (tr.void = true →
      (tr.code = 0x5A → ∃ out : List Byte, out.length = bytes.length
        ∧ (tr.absent = false → out = List.replicate bytes.length 0) ∧ exec (.writeRequest h bytes) s
        = .next (s.modPort h fun p => { p with transaction := none, shiftOut := p.shiftOut ++ out }))
      ∧ (tr.code = 0x5B → ∃ out : List Byte, out.length = n
        ∧ (tr.absent = false → out = tr.frame.take n ++ List.replicate (n - tr.frame.length) 0)
        ∧ exec (.readReply h n) s
        = .next (s.modPort h fun p => { p with transaction := none, shiftOut := p.shiftOut ++ out }))
      ∧ (tr.code = 0x5C → ∃ out : List Byte, out.length = n
        ∧ (tr.absent = false → out = tr.frame.take n ++ List.replicate (n - tr.frame.length) 0)
        ∧ exec (.readNotice h n) s
        = .next (s.modPort h fun p => { p with transaction := none, shiftOut := p.shiftOut ++ out }))
      ∧ (tr.code = 0x5D → ∃ out : List Byte, out.length = n
        ∧ (tr.absent = false → ∀ k, 1 ≤ k → k < n → out[k]? = some 0) ∧ exec (.readStatus h n) s
        = .next (s.modPort h fun p => { p with transaction := none, shiftOut := p.shiftOut ++ out })))
    ∧ (tr.code = code → code ≠ 0x5A → code ≠ 0x5B → code ≠ 0x5C → code ≠ 0x5D →
        exec (.unknownCommand h code n) s = .next (s.modPort h fun p =>
          { p with transaction := none, shiftOut := p.shiftOut ++ List.replicate n 0 }))

/-- R164, R165, R40, R47, R68: a host arrives at an ABSENT port: READY and empty, its cursor at the oldest entry unless
the load is in progress. A host departs: its port is ABSENT and empty and a transaction in progress is void (log entry
27), and no entry of the port stays in the queue. With room in the send queue every circuit of the port that was not
CLOSING has begun a close, WITHDRAWN while PROPOSED and HOST_GONE otherwise, and one that was goes on as it is. -/
def Obligations.HostsComeAndGo : Prop :=
  ∀ (s : State) (h : PortId),
    ((s.port h).link = .absent →
      exec (.hostArrival h) s = .next (s.modPort h fun p =>
        { p with link := .ready, notices := [], rejected := false,
                 cursor := if s.loading then p.cursor else s.oldestEntry }))
    ∧ ((s.port h).link ≠ .absent → ∃ t, exec (.hostDeparture h) s = .next t
      ∧ t.port h = { s.port h with
          link := .absent, notices := [], rejected := false,
          transaction := (s.port h).transaction.map fun tr => { tr with void := true } }
      ∧ (∀ e ∈ t.queue, e.port ≠ h)
      ∧ (∀ c x, t.circuit c = some x → x.near = h → x.state = .closing)
      ∧ (s.Unmarked → s.Room ((s.circuitsOf h).length + s.queue.length) →
        ∀ c x, s.circuit c = some x → x.near = h →
          (x.state ≠ .closing → s.CloseBegun t c x (if x.state = .proposed then .withdrawn else .hostGone))
          ∧ (x.state = .closing → t.circuit c = some x)))

/-- R160: what becomes of a notice, by the port and its queue. -/
def Obligations.NoticePlaced : Prop :=
  ∀ (s : State) (h : PortId) (n : Notice),
    ((s.port h).link = .absent → s.notify h n = s)
    ∧ ((s.port h).link ≠ .absent → ∃ q, s.notify h n = s.modPort h (fun p => { p with notices := q })
      ∧ ((s.port h).notices.length < 15 → q = (s.port h).notices ++ [n])
      ∧ (∀ front k, (s.port h).notices = front ++ [.noticesLost k] →
          (s.port h).notices.length = 15 ∨ (s.port h).notices.length = 16 →
          q = front ++ [.noticesLost (min 255 (k + 1))])
      ∧ (∀ front m, (s.port h).notices = front ++ [m] → Notice.isMarker m = false →
          (s.port h).notices.length = 15 → q = front ++ [m, .noticesLost 1]))

/-! ## Requests -/

/-- R21, R49, R147, R157: the three status requests answer with the record as it stands, in layouts of the stated
lengths, or BAD_REQUEST, and change nothing else. -/
def Obligations.StatusRequestsAnswer : Prop :=
  (∀ (s : State) (h : PortId) (tag b : Byte),
    (s.Asks h .circuitStatus tag [b] →
      (16 ≤ b.toNat → exec (.circuitStatus h) s = .next (s.answered h .circuitStatus tag .badRequest []))
      ∧ ∀ c : SlotId, b.toNat = c.val →
          exec (.circuitStatus h) s = .next (s.answered h .circuitStatus tag .ok (s.slots.get c).bytes))
    ∧ (s.Asks h .laneStatus tag [b] →
      (24 ≤ b.toNat → exec (.laneStatus h) s = .next (s.answered h .laneStatus tag .badRequest []))
      ∧ ∀ i : LaneId, b.toNat = i.val →
          exec (.laneStatus h) s = .next (s.answered h .laneStatus tag .ok ((s.lane i).bytes (s.ownerTag i))))
    ∧ (s.Asks h .trunkStatus tag [] →
      exec (.trunkStatus h) s = .next (s.answered h .trunkStatus tag .ok s.trunkBytes)))
  ∧ (∀ g, (Slot.bytes ⟨g, none⟩).length = 2) ∧ (∀ g x, (Slot.bytes ⟨g, some x⟩).length = 20 + 10 * x.positions.length)
  ∧ (∀ l t, (Lane.bytes l t).length = 36) ∧ ∀ s : State, s.trunkBytes.length = 21

/-- R181: READ_PARAM answers the live value of a parameter of the table, and BAD_REQUEST for any other id. -/
def Obligations.ReadParamAnswers : Prop :=
  ∀ (s : State) (h : PortId) (tag id : Byte), s.Asks h .readParam tag [id] →
    (paramOf id = none → exec (.readParam h) s = .next (s.answered h .readParam tag .badRequest []))
    ∧ ∀ q, paramOf id = some q →
        exec (.readParam h) s = .next (s.answered h .readParam tag .ok (id :: maskBytes (s.params.read q)))

/-- R171, R172, R156: READ_LOG: BAD_REQUEST outside 1 to 4; OK from a valid cursor; LOG_GAP with the lost count from any
other; the cursor moves past what was carried, and nothing else changes. -/
def Obligations.ReadLogAnswers : Prop :=
  ∀ (s : State) (h : PortId) (tag b : Byte), s.Asks h .readLog tag [b] →
    (b.toNat = 0 ∨ 4 < b.toNat → exec (.readLog h) s = .next (s.answered h .readLog tag .badRequest []))
    ∧ (1 ≤ b.toNat → b.toNat ≤ 4 →
      ∀ cursor oldest : Half, cursor = (s.port h).cursor → oldest = s.nextEntry - BitVec.ofNat 16 s.ring.length →
      ((cursor - oldest).toNat ≤ s.ring.length →
        ∀ es, es = (s.ring.drop (cursor - oldest).toNat).take b.toNat →
        exec (.readLog h) s = .next
          ((s.answered h .readLog tag .ok (byteOf es.length :: es.flatMap LogEntry.bytes)).modPort h fun p =>
            { p with cursor := cursor + BitVec.ofNat 16 es.length }))
      ∧ (s.ring.length < (cursor - oldest).toNat →
        ∀ es, es = s.ring.take b.toNat →
        exec (.readLog h) s = .next
          ((s.answered h .readLog tag .logGap
              (halfBytes (oldest - cursor) ++ byteOf es.length :: es.flatMap LogEntry.bytes)).modPort h fun p =>
            { p with cursor := oldest + BitVec.ofNat 16 es.length })))

/-- R182 cases 1 to 5: a WRITE_PARAM that is refused changes nothing but the reply. -/
def Obligations.WriteParamRefused : Prop :=
  ∀ (s : State) (h : PortId) (tag id a b c : Byte) (v : Mask), s.Asks h .writeParam tag [id, a, b, c] →
    v = maskOf a b c →
    (paramOf id = none → exec (.writeParam h) s = .next (s.answered h .writeParam tag .badRequest []))
    ∧ ∀ q, paramOf id = some q →
        (q.inRange v = false
          ∨ (q = .hold ∧ s.params.qualify < v.toNat) ∨ (q = .qualify ∧ v.toNat < s.params.hold)
          ∨ (∃ g, q = .floor g ∧ s.params.ceilings.get g < v.toNat)
          ∨ (∃ g, q = .ceiling g ∧ v.toNat < s.params.floors.get g)
          ∨ (∃ g, q = .floor g ∧
              (lanesOf s.params.enableMask).length < ((indexes 6).map (s.params.floors.set g v.toNat).get).sum)
          ∨ (q = .enableMask ∧ (lanesOf v).length < ((indexes 6).map s.params.floors.get).sum)) →
        exec (.writeParam h) s = .next (s.answered h .writeParam tag .badValue [])

/-- R182 case 6, R181, R101: any other WRITE_PARAM is answered OK and sets the live value, which reads back as written;
a lowered strike limit clamps the strikes of ACTIVE lanes, and no lane changes otherwise, but for the lanes that the
scan of a floor or ceiling write takes. -/
def Obligations.WriteParamTaken : Prop :=
  ∀ (s : State) (h : PortId) (tag id a b c : Byte) (v : Mask) (q : ParamId),
    s.Asks h .writeParam tag [id, a, b, c] → v = maskOf a b c → paramOf id = some q → q.inRange v = true →
    s.params.breaksJoint q v = false →
    ∃ t, exec (.writeParam h) s = .next t ∧ t.params = s.params.write q v ∧ t.params.read q = v
      ∧ (t.port h).link = .replied ⟨0x09, tag, .ok, []⟩
      ∧ (s.Unmarked → (∀ g, q ≠ .floor g) → (∀ g, q ≠ .ceiling g) → ∀ i,
          t.lane i =
            if q = .strikeLimit ∧ v.toNat < s.params.strikeLimit ∧ (s.lane i).state = .active
                ∧ v.toNat - 1 < (s.lane i).strikes then
              { s.lane i with strikes := v.toNat - 1 }
            else s.lane i)

/-- R55: an OPEN that fails a check is answered by the first that fails, and leaves no trace. -/
def Obligations.OpenRefused : Prop :=
  ∀ (s : State) (h : PortId) (tag far cls rw mw pat : Byte), s.Asks h .openCircuit tag [far, cls, rw, mw, pat] →
    (¬ (far.toNat ≤ 5 ∧ cls.toNat ≤ 1 ∧ (1 ≤ rw.toNat ∧ rw.toNat ≤ 8) ∧ (1 ≤ mw.toNat ∧ mw.toNat ≤ rw.toNat)
        ∧ (1 ≤ pat.toNat ∧ pat.toNat ≤ 15)) →
      exec (.openCircuit h) s = .next (s.answered h .openCircuit tag .badRequest []))
    ∧ (far.toNat ≤ 5 → cls.toNat ≤ 1 → 1 ≤ rw.toNat → rw.toNat ≤ 8 → 1 ≤ mw.toNat → mw.toNat ≤ rw.toNat →
      1 ≤ pat.toNat → pat.toNat ≤ 15 →
      ∀ st : Status,
        (if ∃ e ∈ s.queue, e.port = h ∧ e.tag = tag then st = .duplicateTag
        else if s.trunk ≠ .up then st = .trunkDown
        else if cls = 0 ∧ s.params.floors.get h < mw.toNat then st = .noFloor
        else if s.params.ceilings.get h < mw.toNat then st = .overCeiling
        else if 4 ≤ (s.circuitsOf h).length + (s.waitingOf h).length then st = .portLimit
        else if (s.freeHostLanes h).length < rw.toNat then st = .hostLanesShort
        else if 12 ≤ s.queue.length then st = .queueFull
        else False) →
        exec (.openCircuit h) s = .next (s.answered h .openCircuit tag st []))

/-- R50, R56: an OPEN that passes every check while the pool is empty is queued at the tail with the next arrival number
and the lowest free host lanes of its port, and answered QUEUED. Nothing else changes. -/
def Obligations.OpenQueued : Prop :=
  ∀ (s : State) (h : PortId) (tag : Byte) (params : List Byte) (o : OpenParams),
    s.Asks h .openCircuit tag params → openParams params = some o → s.openRefusal h tag o = none →
    s.pool = [] → (∀ e ∈ s.queue, 1 ≤ e.minWidth) → s.Unmarked →
    exec (.openCircuit h) s = .next
      { s.answered h .openCircuit tag .queued (halfBytes s.arrivals) with
        queue := s.queue ++
          [{ port := h, tag := tag, far := o.far, cls := o.cls, reqWidth := o.reqWidth, minWidth := o.minWidth,
             patience := o.patience, arrival := s.arrivals, slot := none,
             reserved := (s.freeHostLanes h).take o.reqWidth, conflicts := 0 }]
        arrivals := s.arrivals + 1 }

/-- R28, R53, R56, R60: an OPEN that passes every check on an empty queue, and whose grant width reaches its minimum, is
served at once: PROCEEDING with slot and width, the head lanes of the pool CLAIMED in positions 0 upward, a PROPOSED
circuit under this side's tag, and SETUP on the line. -/
def Obligations.OpenServedAtOnce : Prop :=
  ∀ (s : State) (h : PortId) (tag : Byte) (params : List Byte) (o : OpenParams) (c : SlotId) (w : Nat) (g : Tag),
    s.Asks h .openCircuit tag params → openParams params = some o → s.openRefusal h tag o = none →
    s.queue = [] → s.PoolMatches → s.CanSend → s.Unmarked → s.vacantSlot = some c →
    w = min o.reqWidth (min ((match o.cls with | .shared => s.params.ceilings.get h | .reserved => s.params.floors.get h)
          - s.holdings h) (s.usable h)) →
    o.minWidth ≤ w → g = ⟨s.side, c, (s.slots.get c).gen⟩ →
    ∃ t, exec (.openCircuit h) s = .next t
      ∧ (t.port h).link = .replied ⟨0x01, tag, .proceeding, halfBytes s.arrivals ++ [byteOf c.val, byteOf w]⟩
      ∧ t.arrivals = s.arrivals + 1 ∧ t.pool = s.pool.drop w
      ∧ (∃ x, t.circuit c = some x ∧ x.state = .proposed ∧ x.role = .origin ∧ x.tag = g ∧ x.near = h ∧ x.far = o.far
          ∧ x.cls = o.cls ∧ x.reqWidth = o.reqWidth ∧ x.minWidth = o.minWidth ∧ x.reqTag = some tag ∧ x.everUp = false
          ∧ x.positions.map (·.hostLane) = (s.freeHostLanes h).take w
          ∧ x.positions.map (·.current) = (s.pool.take w).map some)
      ∧ (∀ k : Nat, ∀ i : LaneId, (s.pool.take w)[k]? = some i → (t.lane i).state = .claimed
          ∧ (t.lane i).place = some ⟨c, .current, k⟩ ∧ (t.lane i).run = (s.lane i).run + 1)
      ∧ (∀ i, i ∉ s.pool.take w → t.lane i = s.lane i)
      ∧ (∃ e, t.queue = [e] ∧ e.slot = some c ∧ e.reserved = [] ∧ e.port = h ∧ e.tag = tag)
      ∧ t.placed = s.placed ++ [.setup g (byteOf o.far.val) (byteOf h.val) o.cls (byteOf o.reqWidth)
          (byteOf o.minWidth) ((numbered (s.pool.take w)).map fun pl => (byteOf pl.1, byteOf pl.2.val))]

/-- R40, R45, R62: the requests WITHDRAW and CLOSE, by the first condition that applies. WITHDRAW of a WAITING entry
removes it, and changes nothing else where no other entry waits; of a PROPOSED one it removes the entry and begins a
close with reason WITHDRAWN. CLOSE begins one on a circuit of the port that is not CLOSING, with reason WITHDRAWN while
it is PROPOSED, whose entry then leaves the queue, and HOST_CLOSE otherwise. -/
def Obligations.WithdrawAndCloseTaken : Prop :=
  ∀ (s : State) (h : PortId) (tag b : Byte),
    (s.Asks h .withdraw tag [b] →
      ((∀ e ∈ s.queue, ¬ (e.port = h ∧ e.tag = b)) →
        exec (.withdraw h) s = .next (s.answered h .withdraw tag .noRequest []))
      ∧ ∀ e, s.queue.find? (fun e => e.port = h ∧ e.tag = b) = some e →
        (e.slot = none → s.Unmarked → (∀ o ∈ s.queue, o.slot = none → o.port = h ∧ o.tag = b) →
          exec (.withdraw h) s = .next { s.answered h .withdraw tag .ok [] with
            queue := s.queue.filter fun o => decide (¬ (o.port = h ∧ o.tag = b)) })
        ∧ ((∀ c, e.slot = some c → s.circuit c ≠ none) →
          ∃ t, exec (.withdraw h) s = .next t ∧ (t.port h).link = .replied ⟨0x03, tag, .ok, []⟩
            ∧ (∀ o ∈ t.queue, ¬ (o.port = h ∧ o.tag = b))
            ∧ ∀ c x, e.slot = some c → s.circuit c = some x → x.state ≠ .closing → s.Unmarked →
                s.Room (1 + s.queue.length) → s.CloseBegun t c x .withdrawn))
    ∧ (s.Asks h .close tag [b] →
      (16 ≤ b.toNat → exec (.closeRequest h) s = .next (s.answered h .close tag .badRequest []))
      ∧ ∀ c : SlotId, b.toNat = c.val →
        (s.circuit c = none → exec (.closeRequest h) s = .next (s.answered h .close tag .noCircuit []))
        ∧ ∀ x, s.circuit c = some x →
          (x.near ≠ h → exec (.closeRequest h) s = .next (s.answered h .close tag .notYours []))
          ∧ (x.near = h → x.state = .closing →
              exec (.closeRequest h) s = .next (s.answered h .close tag .alreadyClosing []))
          ∧ (x.near = h → x.state ≠ .closing →
              ∃ t, exec (.closeRequest h) s = .next t ∧ (t.port h).link = .replied ⟨0x02, tag, .ok, []⟩
                ∧ (x.state = .proposed → ∀ e ∈ t.queue, e.slot ≠ some c)
                ∧ (s.Unmarked → s.Room (1 + s.queue.length) →
                  s.CloseBegun t c x (if x.state = .proposed then .withdrawn else .hostClose))))

/-- R53, R54, R58, R59, R60: the service scan, here the one that the WITHDRAW of a WAITING entry triggers; `q` is the
queue behind it. A PROPOSED entry is passed by, and so is one that is not eligible, whose minimum no pool can fill, or
that finds no VACANT slot. The first WAITING RESERVED entry, and where none waits the first WAITING SHARED one, is
served in the lowest VACANT slot with the head lanes of the pool as soon as it is eligible and admissible, whatever
SHARED entries stand before it; where it takes the whole pool nobody else is served. -/
def Obligations.ServiceScanOrder : Prop :=
  ∀ (s : State) (h : PortId) (tag b : Byte) (gone : Entry) (q : List Entry), s.Asks h .withdraw tag [b] →
    s.queue.find? (fun e => e.port = h ∧ e.tag = b) = some gone → gone.slot = none →
    q = s.queue.filter (fun o => decide (¬ (o.port = h ∧ o.tag = b))) → s.PoolMatches → s.Unmarked → s.Room q.length →
    ∃ t, exec (.withdraw h) s = .next t ∧ t.queue.length = q.length
      ∧ ∀ (n : Nat) (e : Entry), q[n]? = some e →
        (e.slot ≠ none → t.queue[n]? = some e)
        ∧ ((∃ o ∈ q.take n, o.port = e.port ∧ o.far = e.far) ∨ s.pool.length < e.minWidth ∨ s.vacantSlot = none →
            t.queue[n]? = some e)
        ∧ ∀ (c : SlotId) (w : Nat) (g : Tag), e.slot = none → (∀ o ∈ q.take n, ¬ (o.port = e.port ∧ o.far = e.far)) →
          (e.cls = .reserved ∧ (∀ o ∈ q.take n, o.slot = none → o.cls = .shared)
            ∨ e.cls = .shared ∧ (∀ o ∈ q, o.slot = none → o.cls = .shared) ∧ ∀ o ∈ q.take n, o.slot ≠ none) →
          s.vacantSlot = some c → g = ⟨s.side, c, (s.slots.get c).gen⟩ →
          w = min e.reqWidth (min ((match e.cls with
              | .shared => s.params.ceilings.get e.port
              | .reserved => s.params.floors.get e.port) - s.holdings e.port) (s.usable e.port)) →
          e.minWidth ≤ w → w ≤ e.reserved.length →
          t.queue[n]? = some { e with slot := some c, reserved := [] }
          ∧ (∃ x, t.circuit c = some x ∧ x.state = .proposed ∧ x.role = .origin ∧ x.tag = g ∧ x.near = e.port
            ∧ x.far = e.far ∧ x.positions.map (·.current) = (s.pool.take w).map some
            ∧ x.positions.map (·.hostLane) = e.reserved.take w)
          ∧ (∀ (k : Nat) (i : LaneId), (s.pool.take w)[k]? = some i →
            (t.lane i).state = .claimed ∧ (t.lane i).place = some ⟨c, .current, k⟩)
          ∧ (∃ back, t.placed = s.placed ++ .setup g (byteOf e.far.val) (byteOf e.port.val) e.cls (byteOf e.reqWidth)
              (byteOf e.minWidth) ((numbered (s.pool.take w)).map fun pl => (byteOf pl.1, byteOf pl.2.val)) :: back)
          ∧ (w = s.pool.length → ∀ m o, m ≠ n → q[m]? = some o → 1 ≤ o.minWidth → t.queue[m]? = some o)

/-- R11, R17, R103, R104, R111 to R114, R118: FENCE_LANE by the lane's state. Outside circuits a lane without a local
fence takes one with fail count, age, entry and FENCE, and a FREE one leaves the pool as QUARANTINED; a lane fenced
already, or FAILING, is only answered; a RELEASING one takes the reason HOST where it has none; a number above 23 is
BAD_REQUEST. A CLAIMED, TRAINING or QUALIFIED lane takes its fence and leaves its circuit as QUARANTINED, and its
position has lost it: the answering side adds LANE_FAIL in the setup phase, unless the position holds an accepted spare
(log entry 13), and a live origin position whose AMEND is not awaited makes a pick. An ACTIVE lane is declared FAILING
with reason HOST: a position in repair goes on; at one in NONE of the UP phase the circuit is REPAIRING, with LANE_FAIL
from the answering side and a pick at the origin; in the setup phase the lane leaves at once and its position has lost
it. -/
def Obligations.FenceLaneTaken : Prop :=
  ∀ (s : State) (h : PortId) (tag b : Byte), s.Asks h .fenceLane tag [b] → s.Unmarked →
    (24 ≤ b.toNat → exec (.fenceLane h) s = .next (s.answered h .fenceLane tag .badRequest []))
    ∧ ∀ i : LaneId, b.toNat = i.val → ∀ n, n = min 255 ((s.lane i).failCount + 1) →
      ((s.lane i).state = .offline ∨ (s.lane i).state = .free ∨ (s.lane i).state = .quarantined →
        (s.lane i).localFence = false → s.sendQueue.length < Config.sendCapacity →
        ∃ t, exec (.fenceLane h) s = .next t ∧ (t.port h).link = .replied ⟨0x0A, tag, .ok, []⟩
          ∧ (t.lane i).localFence = true ∧ (t.lane i).failCount = n
          ∧ (t.lane i).age = (if s.params.retireLimit ≤ n ∨ s.params.release = 0 then none else some s.params.release)
          ∧ (t.lane i).state = (if (s.lane i).state = .free then .quarantined else (s.lane i).state)
          ∧ ((s.lane i).state = .free → t.pool = s.pool.filter fun j => decide (j ≠ i))
          ∧ (∀ j, j ≠ i → t.lane j = s.lane j)
          ∧ (∃ e ∈ t.ring, e.kind = .laneFenced ∧ e.lane = some i ∧ e.tag = none ∧ e.detail = detail2 0x03 (byteOf n))
          ∧ t.placed = s.placed ++ (if s.trunk = .up then [.fence b (.failure .host)] else []))
      ∧ (((s.lane i).state = .offline ∨ (s.lane i).state = .quarantined) ∧ (s.lane i).localFence = true
          ∨ (s.lane i).state = .failing →
        exec (.fenceLane h) s = .next (s.answered h .fenceLane tag .ok []))
      ∧ ((s.lane i).state = .releasing →
        exec (.fenceLane h) s = .next ((s.modLane i fun l =>
          { l with failure := some (l.failure.getD .host) }).answered h .fenceLane tag .ok []))
      ∧ ∀ pl x p left, (s.lane i).place = some pl → s.circuit pl.slot = some x → x.positions[pl.position]? = some p →
        (pl.role = .current ∧ left = { p with current := none }
          ∨ pl.role = .replacement ∧ left = { p with replacement := none }) →
        ((s.lane i).state = .claimed ∨ (s.lane i).state = .training ∨ (s.lane i).state = .qualified → i ∉ s.pool →
          s.pool.Nodup → s.Room 2 → x.role = .origin → x.live = true → p.repair = .proposed ∨ p.attempts < 3 →
          ∃ t, exec (.fenceLane h) s = .next t ∧ (t.port h).link = .replied ⟨0x0A, tag, .ok, []⟩
            ∧ (t.lane i).state = .quarantined ∧ (t.lane i).localFence = true ∧ (t.lane i).place = none
            ∧ (t.lane i).training = none ∧ (t.lane i).failCount = n ∧ (t.lane i).run = (s.lane i).run + 1
            ∧ (∃ e ∈ t.ring, e.kind = .laneFenced ∧ e.lane = some i ∧ e.tag = some x.tag
                ∧ e.detail = detail2 0x03 (byteOf n))
            ∧ (∀ j, j ≠ i → j ∉ s.pool → t.lane j = s.lane j)
            ∧ (p.repair ≠ .proposed → s.Picked t pl.slot pl.position x left s.pool [.fence b (.failure .host)])
            ∧ (p.repair = .proposed → t.placed = s.placed ++ [.fence b (.failure .host)]
                ∧ ∃ y, t.circuit pl.slot = some y ∧ y.positions[pl.position]? = some left))
        ∧ ((s.lane i).state = .claimed ∨ (s.lane i).state = .training ∨ (s.lane i).state = .qualified →
          s.Room 2 → x.role = .answer ∨ x.state = .proposed →
          ∃ t y, exec (.fenceLane h) s = .next t ∧ (t.port h).link = .replied ⟨0x0A, tag, .ok, []⟩
            ∧ (t.lane i).state = .quarantined ∧ (t.lane i).localFence = true ∧ (t.lane i).place = none
            ∧ (t.lane i).training = none ∧ (t.lane i).failCount = n ∧ (t.lane i).run = (s.lane i).run + 1
            ∧ (∃ e ∈ t.ring, e.kind = .laneFenced ∧ e.lane = some i ∧ e.tag = some x.tag
                ∧ e.detail = detail2 0x03 (byteOf n))
            ∧ (∀ j, j ≠ i → t.lane j = s.lane j)
            ∧ t.circuit pl.slot = some y ∧ y.positions[pl.position]? = some left
            ∧ t.placed = s.placed ++ .fence b (.failure .host) ::
                (if x.role = .answer ∧ x.state = .training ∧ p.repair = .none then
                  [.laneFail x.tag (byteOf pl.position) .host] else []))
        ∧ ((s.lane i).state = .active → x.state = .repairing → p.repair ≠ .none →
          ∃ t, exec (.fenceLane h) s = .next t ∧ (t.port h).link = .replied ⟨0x0A, tag, .ok, []⟩
            ∧ t.lane i = { s.lane i with
                state := .failing, failure := some .host, strikes := 0, run := (s.lane i).run + 1, training := none }
            ∧ (∀ j, j ≠ i → t.lane j = s.lane j) ∧ (∀ c, t.circuit c = s.circuit c) ∧ t.placed = s.placed
            ∧ t.ring.getLast?.map (fun e => (e.kind, e.lane, e.tag, e.detail))
                = some (.laneFailing, some i, some x.tag, detail2 0x03 0))
        ∧ ((s.lane i).state = .active → x.state = .up ∨ x.state = .repairing → p.repair = .none → p.attempts < 3 →
          p.dropped = false → i ∉ s.pool → s.pool.Nodup → s.Room 1 →
          ∃ t y, exec (.fenceLane h) s = .next t ∧ (t.port h).link = .replied ⟨0x0A, tag, .ok, []⟩
            ∧ t.circuit pl.slot = some y ∧ y.state = .repairing ∧ t.boundTo i = s.boundTo i
            ∧ t.lane i = { s.lane i with
                state := .failing, failure := some .host, strikes := 0, run := (s.lane i).run + 1, training := none }
            ∧ (x.state = .up → (s.port x.near).link ≠ .absent →
                (t.port x.near).notices = queueNotice (s.port x.near).notices (.circuitRepairing pl.slot))
            ∧ (x.role = .answer → y.positions = x.positions
                ∧ t.placed = s.placed ++ [.laneFail x.tag (byteOf pl.position) .host])
            ∧ (x.role = .origin → s.Picked t pl.slot pl.position x p s.pool []))
        ∧ ((s.lane i).state = .active → x.state = .training → pl.role = .current → p.repair = .none → p.attempts < 3 →
          i ∉ s.pool → s.pool.Nodup → s.Room 2 →
          ∃ t y, exec (.fenceLane h) s = .next t ∧ (t.port h).link = .replied ⟨0x0A, tag, .ok, []⟩
            ∧ t.circuit pl.slot = some y ∧ y.state = .training ∧ t.boundTo i = none
            ∧ (t.lane i).state = .quarantined ∧ (t.lane i).localFence = true ∧ (t.lane i).place = none
            ∧ (t.lane i).failure = some .host ∧ (t.lane i).failCount = n
            ∧ (x.role = .answer → y.positions[pl.position]? = some left
                ∧ t.placed = s.placed ++ [.fence b (.failure .host), .laneFail x.tag (byteOf pl.position) .host])
            ∧ (x.role = .origin → s.Picked t pl.slot pl.position x left s.pool [.fence b (.failure .host)]))

/-- R18: UNFENCE_LANE resets the fail count in every state; a local fence is cleared with its age and UNFENCE is placed
while the trunk is UP; a QUARANTINED lane without a peer fence becomes FREE at the pool tail. -/
def Obligations.UnfenceLaneTaken : Prop :=
  ∀ (s : State) (h : PortId) (tag b : Byte), s.Asks h .unfenceLane tag [b] → s.Unmarked →
    (24 ≤ b.toNat → exec (.unfenceLane h) s = .next (s.answered h .unfenceLane tag .badRequest []))
    ∧ ∀ i : LaneId, b.toNat = i.val →
      ((s.lane i).localFence = false →
        exec (.unfenceLane h) s
          = .next ((s.modLane i fun l => { l with failCount := 0 }).answered h .unfenceLane tag .ok []))
      ∧ ((s.lane i).localFence = true → s.sendQueue.length < Config.sendCapacity → s.NobodyWaits →
        ∃ t, exec (.unfenceLane h) s = .next t ∧ (t.port h).link = .replied ⟨0x0B, tag, .ok, []⟩
          ∧ (t.lane i).localFence = false ∧ (t.lane i).age = none ∧ (t.lane i).failCount = 0
          ∧ (∀ j, j ≠ i → t.lane j = s.lane j)
          ∧ t.placed = s.placed ++ (if s.trunk = .up then [.unfence b] else [])
          ∧ ((s.lane i).state = .quarantined → (s.lane i).peerFence = false →
              (t.lane i).state = .free ∧ t.pool = (s.pool.filter fun j => decide (j ≠ i)) ++ [i])
          ∧ ((s.lane i).state ≠ .quarantined ∨ (s.lane i).peerFence = true →
              (t.lane i).state = (s.lane i).state ∧ t.pool = s.pool))

/-- R146: RESTART_TRUNK is answered OK; an UP trunk goes LOST with reason RESTART; a JOINING one begins a new period
with the pending mask; a LOST one is left. -/
def Obligations.RestartTrunkTaken : Prop :=
  ∀ (s : State) (h : PortId) (tag : Byte), s.Asks h .restartTrunk tag [] → s.Unmarked →
    (s.trunk = .lost → exec (.restartTrunk h) s = .next (s.answered h .restartTrunk tag .ok []))
    ∧ (s.trunk = .joining → ∃ t, exec (.restartTrunk h) s = .next t
        ∧ t = { s.answered h .restartTrunk tag .ok [] with
            peerHeard := false, clash := false, peerEnable := none, peerFences := none, fenceChanges := [],
            joinMask := some s.params.enableMask, joinSent := false,
            txFrames := s.txFrames.filter fun f => !isJoin f })
    ∧ (s.trunk = .up → ∃ t, exec (.restartTrunk h) s = .next t ∧ t.trunk = .lost ∧ t.lastLoss = some .restart
        ∧ (t.port h).link = .replied ⟨0x0C, tag, .ok, []⟩ ∧ t.pool = [] ∧ (∀ c, t.circuit c = none)
        ∧ (∀ i, (t.lane i).state = .offline))

/-! ## Trunk -/

/-- R127, R140, R143 to R145: a good JOIN by the trunk state it meets, for both rows that name it (log entry 7): DOWN
ignores it, LOST discards it, and so does JOINING where a part of it had arrived when the trunk was declared LOST; any
other one in JOINING is heard and recorded if it is bare, and logged once if it clashes; in UP a READY one is answered
with JOIN(UP), one with UP is ignored, and a bare or clashing one loses the trunk. -/
def Obligations.JoinHandled : Prop :=
  ∀ (s : State) (q a : Seq) (j : JoinInfo) (c : Instr), (c = .join q a j ∨ c = .joinWhileUp q a j) →
    (s.trunk = .down → exec c s = .next s)
    ∧ (s.trunk = .lost ∨ s.trunk = .joining ∧ s.partFrame = true → exec c s = .next { s with partFrame := false })
    ∧ (s.trunk = .joining → s.partFrame = false → j.side ≠ s.side → j.ready = false → j.up = false →
      exec c s = .next { s with peerHeard := true, peerEnable := some j.enable, peerFences := some j.fences })
    ∧ (s.trunk = .joining → s.partFrame = false → j.side = s.side → s.clash = true → exec c s = .next s)
    ∧ (s.trunk = .joining → s.partFrame = false → j.side = s.side → s.clash = false →
      exec c s = .next { s.log .joinClash none none 0 with clash := true })
    ∧ (s.trunk = .up → j.side ≠ s.side → j.up = true → exec c s = .next { s with silenceCount := 0 })
    ∧ (s.trunk = .up → j.side ≠ s.side → j.up = false → j.ready = true →
      exec c s = .next { s with
        silenceCount := 0, sentSinceTick := true,
        txFrames := queueFrame s.txFrames ⟨0, s.expectedSeq, .join ⟨s.side, true, true, s.joinMask.getD 0,
          maskWhere fun i => (s.lane i).localFence⟩⟩ })
    ∧ (s.trunk = .up → (j.side = s.side ∨ (j.up = false ∧ j.ready = false)) →
      ∃ t, exec c s = .next t ∧ t.trunk = .lost
        ∧ t.lastLoss = some (if j.side = s.side then .sideClash else .peerRestart) ∧ t.partFrame = false)

/-- R19, R129, R138, R140, R141: a JOIN with READY or UP from the opposite side takes a JOINING trunk UP: the session
begins afresh, lanes and pool are rebuilt from the two masks and the fences, and every present host is told. -/
def Obligations.TrunkGoesUp : Prop :=
  ∀ (s : State) (q a : Seq) (j : JoinInfo) (mask : Mask), s.trunk = .joining → s.partFrame = false →
    j.side ≠ s.side → (j.ready = true ∨ j.up = true) → s.joinMask = some mask → s.fenceChanges = [] → s.NobodyWaits →
    s.Unmarked →
    ∃ t, exec (.join q a j) s = .next t ∧ t.trunk = .up ∧ t.sessions = s.sessions + 1
      ∧ t.nextSeq = 0 ∧ t.expectedSeq = 0 ∧ t.outstanding = [] ∧ t.sendQueue = [] ∧ t.mark = false
      ∧ t.retryCount = 0 ∧ t.silenceCount = 0 ∧ t.sentSinceTick = true
      ∧ (∀ i : LaneId, (t.lane i).peerFence = j.fences.getLsbD i.val
          ∧ (t.lane i).localFence = (s.lane i).localFence
          ∧ (t.lane i).state =
              (if mask.getLsbD i.val = true ∧ j.enable.getLsbD i.val = true then
                if (s.lane i).localFence = true ∨ j.fences.getLsbD i.val = true then .quarantined else .free
              else (s.lane i).state))
      ∧ t.pool = (sideOrder s.side).filter fun i => decide ((t.lane i).state = LaneState.free)
      ∧ ∀ h, (s.port h).link ≠ .absent → (t.port h).notices = queueNotice (s.port h).notices .trunkUp

/-- R133, R131: an ACK while UP removes what it passes, clears the mark and the retry count, and lets waiting messages
out while the window allows, in their order; one that passes nothing resets the silence count alone; one that comes
while the trunk is not UP is discarded, and a frame of which a part had arrived at the loss is then complete (R144,
R145). -/
def Obligations.AckRemovesPassed : Prop :=
  ∀ (s : State) (q a : Seq),
    (s.trunk = .down → exec (.ack q a) s = .next s)
    ∧ (s.trunk = .joining ∨ s.trunk = .lost → exec (.ack q a) s = .next { s with partFrame := false })
    ∧ (s.trunk = .up → s.outstanding = [] → exec (.ack q a) s = .next { s with silenceCount := 0 })
    ∧ (∀ o m rest, s.trunk = .up → s.outstanding = (o, m) :: rest →
        ((a - o).toNat = 0 ∨ s.outstanding.length < (a - o).toNat →
          exec (.ack q a) s = .next { s with silenceCount := 0 })
        ∧ (1 ≤ (a - o).toNat → (a - o).toNat ≤ s.outstanding.length → s.outstanding.length ≤ Config.window →
          ∃ t, exec (.ack q a) s = .next t ∧ t.silenceCount = 0 ∧ t.mark = false ∧ t.retryCount = 0
            ∧ t.placed = s.placed.drop (a - o).toNat
            ∧ (t.sendQueue = [] ∨ t.outstanding.length = Config.window)))

/-- R127, R132, R144, R145: a sequenced frame, of any of the eleven kinds, that comes while the trunk is not UP is
discarded, and a frame of which a part had arrived at the loss is then complete; one out of sequence is used for its ack
alone. -/
def Obligations.OutOfOrderDiscarded : Prop :=
  ∀ (m : Msg) (q a : Seq) (s : State),
    (s.trunk = .down → exec (m.command q a) s = .next s)
    ∧ (s.trunk = .joining ∨ s.trunk = .lost → exec (m.command q a) s = .next { s with partFrame := false })
    ∧ (s.trunk = .up → q ≠ s.expectedSeq →
        exec (m.command q a) s = .next (State.acknowledge { s with silenceCount := 0 } a))

/-- R134 to R136, R139, R145: a control tick: in JOINING one JOIN goes; in LOST a JOINING period begins with its first
JOIN, bare; in UP with nothing outstanding the silence count rises, and an ACK goes where nothing was sent. -/
def Obligations.ControlTickWork : Prop :=
  ∀ (s : State) (ms : Nat), s.controlTimer = .running ms →
    (s.trunk = .joining → exec .controlTick s = .next { s with
      controlTimer := .running s.params.controlTick, joinSent := true, sentSinceTick := true,
      txFrames := queueFrame s.txFrames ⟨0, s.expectedSeq, .join ⟨s.side, s.peerHeard, false, s.joinMask.getD 0,
        maskWhere fun i => (s.lane i).localFence⟩⟩ })
    ∧ (s.trunk = .lost → ∃ t, exec .controlTick s = .next t ∧ t.trunk = .joining ∧ t.peerHeard = false
        ∧ t.clash = false ∧ t.peerEnable = none ∧ t.peerFences = none ∧ t.fenceChanges = []
        ∧ t.joinMask = some s.params.enableMask
        ∧ ⟨0, s.expectedSeq, .join ⟨s.side, false, false, s.params.enableMask,
            maskWhere fun i => (s.lane i).localFence⟩⟩ ∈ t.txFrames)
    ∧ (s.trunk = .up → s.outstanding = [] → s.silenceCount + 1 < s.params.silenceLimit → s.Unmarked →
      exec .controlTick s = .next { s with
        controlTimer := .running s.params.controlTick, silenceCount := s.silenceCount + 1, mark := false,
        sentSinceTick := false,
        txFrames := if s.sentSinceTick then s.txFrames
          else queueFrame s.txFrames ⟨0, s.expectedSeq, .ack⟩ })

/-- R135: a tick that finds messages outstanding sets the mark; a tick that finds the mark resends every one, oldest
first, each with its own seq and the expected seq as its ack, with one TCC_RETRANSMIT entry. RETRANSMIT names that tick
(log entry 6). -/
def Obligations.OutstandingResent : Prop :=
  ∀ (s : State) (ms : Nat), s.controlTimer = .running ms → s.trunk = .up →
    s.silenceCount + 1 < s.params.silenceLimit → s.outstanding ≠ [] → s.Unmarked →
    (s.mark = false → ∃ t, exec .controlTick s = .next t ∧ t.mark = true ∧ t.retryCount = s.retryCount
        ∧ t.placed = s.placed ∧ t.silenceCount = s.silenceCount + 1)
    ∧ (s.mark = true → s.retryCount + 1 ≤ s.params.retryLimit → ∃ t, exec .retransmit s = .next t
        ∧ exec .controlTick s = .next t ∧ t.mark = false ∧ t.retryCount = s.retryCount + 1
        ∧ t.retransmissions = min 65535 (s.retransmissions + 1) ∧ t.placed = s.placed ∧ t.sentSinceTick = false
        ∧ t.txFrames = (s.txFrames.filter fun f => !frameCarries (s.outstanding.map Prod.fst) f)
            ++ s.outstanding.map (fun m => ⟨m.1, s.expectedSeq, .msg m.2⟩)
        ∧ t.ring.getLast?.map (fun e => (e.kind, e.detail)) = some (.tccRetransmit,
            detail2 (byteOf (s.retryCount + 1)) (byteOf s.outstanding.length)))

/-- R20, R48, R66, R78, R134, R135, R144: the tick at which the silence limit is reached, and the tick at which the
retry limit is passed, lose the trunk: every lane is OFFLINE and out of its circuit with its history kept, every slot is
VACANT with its generation advanced, every entry waits, and the channel is empty. TCC_RETRY and PEER_SILENT name that
tick (log entry 6). -/
def Obligations.TrunkLossClearsAll : Prop :=
  ∀ (s : State) (ms : Nat) (c : Instr) (r : LossReason), s.controlTimer = .running ms → s.trunk = .up →
    (c = .peerSilent ∧ r = .peerSilent ∧ s.params.silenceLimit ≤ s.silenceCount + 1
      ∨ c = .tccRetry ∧ r = .tccRetry ∧ s.silenceCount + 1 < s.params.silenceLimit ∧ s.outstanding ≠ []
          ∧ s.mark = true ∧ s.params.retryLimit < s.retryCount + 1) →
    ∃ t, exec c s = .next t ∧ exec .controlTick s = .next t ∧ t.trunk = .lost ∧ t.lastLoss = some r
      ∧ t.sendQueue = [] ∧ t.outstanding = [] ∧ t.txFrames = [] ∧ t.sending = none ∧ t.mark = false
      ∧ t.retryCount = 0 ∧ t.silenceCount = 0 ∧ t.pool = [] ∧ t.seeking = [] ∧ t.dwellQueue = []
      ∧ (∀ e ∈ t.queue, e.slot = none)
      ∧ (∀ d, t.slots.get d = ⟨if (s.circuit d).isSome then (s.slots.get d).gen + 1 else (s.slots.get d).gen, none⟩)
      ∧ ∀ i, (t.lane i).state = .offline ∧ (t.lane i).place = none ∧ (t.lane i).training = none
          ∧ (t.lane i).preset = none ∧ (t.lane i).fom = none ∧ (t.lane i).failure = none ∧ (t.lane i).strikes = 0
          ∧ (t.lane i).peerTrained = false ∧ (t.lane i).peerFence = false
          ∧ (t.lane i).lastGood = (s.lane i).lastGood ∧ (t.lane i).missed = (s.lane i).missed
          ∧ (t.lane i).run = (if (s.lane i).state = .offline then (s.lane i).run else (s.lane i).run + 1)
          ∧ ((t.lane i).localFence = true ↔ (s.lane i).localFence = true ∨ (s.lane i).failure ≠ none
              ∧ ((s.lane i).state = .failing ∨ (s.lane i).state = .releasing))

/-! ## Circuits -/

/-- R33, R34: a SETUP that is not discarded is judged by its checks in order, and the first that fails is answered with
REFUSE; nothing else is taken. A SETUP under this side's own tag, under a stored tag, or out of range is discarded. -/
def Obligations.SetupRefused : Prop :=
  ∀ (s r : State) (q a : Seq) (g : Tag) (far near : Byte) (cls : Cls) (rw mw : Byte) (pairs : List (Byte × Byte)),
    s.InOrder q → r = s.counted a → s.Unmarked →
    (g.side = r.side ∨ r.answers g = true ∨ setupIn far near rw mw pairs = none →
      exec (.setup q a g far near cls rw mw pairs) s = .next r)
    ∧ ∀ m why (lanes : List LaneId), g.side ≠ r.side → r.answers g = false →
        setupIn far near rw mw pairs = some m → r.CanSend →
        (if (r.port m.near).link = .absent then why = .farPortAbsent ∧ lanes = []
        else if 4 ≤ (r.circuitsOf m.near).length + (r.waitingOf m.near).length then why = .farPortLimit ∧ lanes = []
        else if (r.freeHostLanes m.near).length < m.lanes.length then why = .farPortLanes ∧ lanes = []
        else if ∀ c, r.circuit c ≠ none then why = .farTableFull ∧ lanes = []
        else if ∃ i ∈ m.lanes, (r.lane i).state ≠ .free ∧ (r.lane i).state ≠ .claimed then
          why = .laneUnavailable
            ∧ lanes = m.lanes.filter fun i => decide ((r.lane i).state ≠ .free ∧ (r.lane i).state ≠ .claimed)
        else if r.side = .a ∧ ∃ i ∈ m.lanes, (r.lane i).state = .claimed then
          why = .laneConflict ∧ lanes = m.lanes.filter fun i => decide ((r.lane i).state = .claimed)
        else False) →
        exec (.setup q a g far near cls rw mw pairs) s = .next (r.sent (.refuse g why (lanes.map fun i => byteOf i.val)))

/-- R7, R34, R35, R82: a SETUP that passes every check makes an answering circuit in the lowest VACANT slot: its lanes,
FREE ones taken from the pool by name, and on side B CLAIMED ones yielded by this side's own proposals, begin training
in their positions, and ACCEPT goes out. -/
def Obligations.SetupAccepted : Prop :=
  ∀ (s r : State) (q a : Seq) (g : Tag) (far near : Byte) (cls : Cls) (rw mw : Byte) (pairs : List (Byte × Byte))
    (m : SetupIn) (c : SlotId),
    s.InOrder q → r = s.counted a → s.Unmarked → g.side ≠ r.side → r.answers g = false →
    setupIn far near rw mw pairs = some m → r.CanSend → (r.port m.near).link ≠ .absent →
    (r.circuitsOf m.near).length + (r.waitingOf m.near).length < 4 →
    m.lanes.length ≤ (r.freeHostLanes m.near).length → r.vacantSlot = some c →
    (∀ i ∈ m.lanes, (r.lane i).state = .free ∨ (r.lane i).state = .claimed ∧ r.side = .b) →
    ∃ t, exec (.setup q a g far near cls rw mw pairs) s = .next t
      ∧ t.placed = r.placed ++ [.accept g (byteOf c.val)]
      ∧ (∃ x, t.circuit c = some x ∧ x.state = .training ∧ x.role = .answer ∧ x.tag = g ∧ x.near = m.near
          ∧ x.far = m.far ∧ x.cls = cls ∧ x.reqWidth = rw.toNat ∧ x.minWidth = mw.toNat ∧ x.reqTag = none
          ∧ x.answerSlot = none ∧ x.positions.map (·.current) = m.lanes.map some
          ∧ x.positions.map (·.hostLane) = (r.freeHostLanes m.near).take m.lanes.length)
      ∧ (∀ k : Nat, ∀ i : LaneId, m.lanes[k]? = some i → (t.lane i).state = .training
          ∧ (t.lane i).place = some ⟨c, .current, k⟩ ∧ (t.lane i).peerTrained = false
          ∧ (t.lane i).run = (r.lane i).run + 1 ∧ (t.lane i).training = some (freshRecord r.params (r.lane i) 1))
      ∧ (t.pool = r.pool.filter fun i => decide (i ∉ m.lanes))
      ∧ ∀ i ∈ m.lanes, (r.lane i).state = .claimed → r.Yielded t i

/-- R30, R63, R82: ACCEPT for a PROPOSED circuit whose positions all hold their lanes: the circuit is TRAINING with the
answer slot carried, absent above 15, every lane begins its run, and the entry leaves the queue. ACCEPT for any other
record or an unknown tag is discarded. -/
def Obligations.AcceptTaken : Prop :=
  ∀ (s r : State) (q a : Seq) (g : Tag) (b : Byte), s.InOrder q → r = s.counted a → s.Unmarked →
    (r.matchTag g = none → exec (.accept q a g b) s = .next r)
    ∧ ∀ c x, r.matchTag g = some (c, x) →
      (x.state ≠ .proposed → exec (.accept q a g b) s = .next r)
      ∧ (x.state = .proposed → r.NobodyWaits → (∀ p ∈ x.positions, p.current ≠ none) → x.lanes.Nodup →
        ∃ t, exec (.accept q a g b) s = .next t
          ∧ t.circuit c = some { x with
              state := .training, answerSlot := if h : b.toNat < 16 then some ⟨b.toNat, h⟩ else none }
          ∧ (∀ i ∈ x.lanes, (t.lane i).state = .training ∧ (t.lane i).run = (r.lane i).run + 1
              ∧ (t.lane i).training = some (freshRecord r.params (r.lane i) 1))
          ∧ ∀ e ∈ t.queue, e.slot ≠ some c)

/-- R31, R32, R41, R64, R65: REFUSE for a PROPOSED circuit. With a far-port reason its lanes return to the pool head in
position order, its slot is VACANT and its entry leaves with OPEN_FAILED. With a lane reason the lanes listed with
LANE_UNAVAILABLE go to the tail and the others to the head, and the conflict counts: the third removes the entry, and so
does a port short of host lanes; otherwise the entry is WAITING again with host lanes reserved afresh, or has been
served again at once from that pool. In CLOSING it completes the close. For any other record and under an unknown tag it
is discarded. A LANE_UNAVAILABLE list that names a lane twice, or one above T23, is log entry 23's and is not stated
here. -/
def Obligations.RefuseTaken : Prop :=
  ∀ (s r : State) (q a : Seq) (g : Tag) (why : RefuseReason) (listed : List Byte),
    s.InOrder q → r = s.counted a → s.Unmarked →
    (r.matchTag g = none → exec (.refuse q a g why listed) s = .next r)
    ∧ ∀ c x, r.matchTag g = some (c, x) →
      (x.state = .training ∨ x.state = .up ∨ x.state = .repairing → exec (.refuse q a g why listed) s = .next r)
      ∧ (x.state = .closing → r.NobodyWaits → ∃ t, exec (.refuse q a g why listed) s = .next t
          ∧ t.slots.get c = ⟨(r.slots.get c).gen + 1, none⟩
          ∧ (x.closeReason = some .withdrawn → r.PoolMatches → x.lanes.Nodup →
              (∀ i ∈ x.lanes, (r.lane i).state = .releasing ∧ (r.lane i).Clean) → t.pool = x.lanes ++ r.pool))
      ∧ ∀ e told, x.state = .proposed → r.NobodyWaits → r.PoolMatches → x.lanes.Nodup →
        (∀ i ∈ x.lanes, (r.lane i).state = .claimed ∧ (r.lane i).Clean) → r.entryOfSlot c = some e →
        (why = .farPortAbsent ∧ told = .farPortAbsent ∨ why = .farPortLimit ∧ told = .farPortLimit
          ∨ why = .farPortLanes ∧ told = .farPortLanes ∨ why = .farTableFull ∧ told = .farTableFull →
        ∃ t, exec (.refuse q a g why listed) s = .next t
          ∧ t.pool = x.lanes ++ r.pool ∧ (∀ i ∈ x.lanes, (t.lane i).state = .free ∧ (t.lane i).place = none)
          ∧ t.slots.get c = ⟨(r.slots.get c).gen + 1, none⟩
          ∧ (∀ o ∈ t.queue, ¬ (o.port = e.port ∧ o.tag = e.tag))
          ∧ ((r.port e.port).link ≠ .absent →
              (t.port e.port).notices = queueNotice (r.port e.port).notices (.openFailed e.tag told)))
        ∧ ∀ (named tail pool : List LaneId) (hosts : List HostLane),
          (why = .laneConflict ∧ tail = [] ∨ why = .laneUnavailable ∧ named.Nodup
            ∧ listed = named.map (fun i => byteOf i.val) ∧ tail = named.filter fun i => decide (i ∈ x.lanes)) →
          pool = (x.lanes.filter fun i => decide (i ∉ tail)) ++ r.pool ++ tail →
          hosts = State.freeHostLanes { r with slots := r.slots.set c ⟨(r.slots.get c).gen + 1, none⟩ } e.port →
          (3 ≤ e.conflicts + 1 ∧ told = .conflict
              ∨ e.conflicts + 1 < 3 ∧ hosts.length < e.reqWidth ∧ told = .hostLanesShort →
            ∃ t, exec (.refuse q a g why listed) s = .next t
              ∧ t.pool = pool ∧ (∀ i ∈ x.lanes, (t.lane i).state = .free ∧ (t.lane i).place = none)
              ∧ t.slots.get c = ⟨(r.slots.get c).gen + 1, none⟩
              ∧ (∀ o ∈ t.queue, ¬ (o.port = e.port ∧ o.tag = e.tag))
              ∧ ((r.port e.port).link ≠ .absent →
                  (t.port e.port).notices = queueNotice (r.port e.port).notices (.openFailed e.tag told)))
          ∧ (e.conflicts + 1 < 3 → e.reqWidth ≤ hosts.length → r.Room 1 →
            ∃ t o, exec (.refuse q a g why listed) s = .next t ∧ (t.slots.get c).gen = (r.slots.get c).gen + 1
              ∧ o ∈ t.queue ∧ t.queue.length = r.queue.length
              ∧ o = { e with conflicts := e.conflicts + 1, slot := o.slot, reserved := o.reserved }
              ∧ (pool.length < e.minWidth → o.slot = none)
              ∧ (o.slot = none → o.reserved = hosts.take e.reqWidth ∧ t.pool = pool
                ∧ ∀ i ∈ x.lanes, (t.lane i).state = .free ∧ (t.lane i).place = none)
              ∧ ∀ d, o.slot = some d → o.reserved = [] ∧ ∃ y w, t.circuit d = some y ∧ y.state = .proposed
                ∧ e.minWidth ≤ w ∧ y.lanes = pool.take w ∧ t.pool = pool.drop w
                ∧ ∀ i ∈ y.lanes, (t.lane i).state = .claimed)

/-- R4, R10, R37, R38, R39, R44, R119: TRAINED for a live circuit. OK for a lane in TRAINING sets its peer trained flag
and leaves it there; for a QUALIFIED one it makes the lane ACTIVE and bound. A current lane joins the UP decision: the
circuit becomes UP, and its host is told, where every other position is ready, and stays in TRAINING otherwise. A
replacement lane causes a switchover: it is the current lane from then on, the old one leaves QUARANTINED, and the
circuit is UP again where no other position is in repair. FAIL, on the answering side, sets the peer fence and takes the
lane out as QUARANTINED. Where the position has no lane in TRAINING or QUALIFIED, where the record is not live, and
under an unknown tag TRAINED is discarded. -/
def Obligations.TrainedTaken : Prop :=
  ∀ (s r : State) (q a : Seq) (g : Tag) (b : Byte) (ok : Bool), s.InOrder q → r = s.counted a → s.Unmarked →
    (r.matchTag g = none → exec (.trained q a g b ok) s = .next r)
    ∧ ∀ c x, r.matchTag g = some (c, x) →
      (x.state = .proposed ∨ x.state = .closing → exec (.trained q a g b ok) s = .next r)
      ∧ (x.live = true →
        (x.positions[b.toNat]? = none → exec (.trained q a g b ok) s = .next r)
        ∧ ∀ p, x.positions[b.toNat]? = some p →
          ((∀ i ∈ p.lanes, (r.lane i).state ≠ .training ∧ (r.lane i).state ≠ .qualified) →
            exec (.trained q a g b ok) s = .next r)
          ∧ (∀ i, p.current = some i → p.replacement = none → (r.lane i).state = .training →
            (ok = true → exec (.trained q a g b ok) s = .next (r.modLane i fun l => { l with peerTrained := true }))
            ∧ (ok = false → x.role = .answer → (r.lane i).place = some ⟨c, .current, b.toNat⟩ →
              ∃ t, exec (.trained q a g b ok) s = .next t
                ∧ (t.lane i).state = .quarantined ∧ (t.lane i).peerFence = true ∧ (t.lane i).place = none
                ∧ (t.lane i).training = none ∧ (t.lane i).run = (r.lane i).run + 1
                ∧ (∀ j, j ≠ i → t.lane j = r.lane j)
                ∧ t.circuit c = some { x with
                    positions := x.positions.modify b.toNat fun p => { p with current := none } }))
          ∧ (∀ i, p.current = some i → (r.lane i).state = .qualified →
            (r.lane i).place = some ⟨c, .current, b.toNat⟩ → ok = true → x.state = .training → p.dropped = false →
            p.repair = .none ∨ p.repair = .replacing →
            ∃ t y, exec (.trained q a g b ok) s = .next t
              ∧ t.lane i = { r.lane i with
                  state := .active, peerTrained := true, run := (r.lane i).run + 1, training := none }
              ∧ (∀ j, j ≠ i → t.lane j = r.lane j) ∧ t.boundTo i = some (x.near, p.hostLane)
              ∧ t.circuit c = some y ∧ y.lanes = x.lanes ∧ (y.positions[b.toNat]?).map (·.repair) = some .none
              ∧ (r.OthersActive x b.toNat → y.state = .up ∧ y.everUp = true
                ∧ ((r.port x.near).link ≠ .absent → (t.port x.near).notices
                    = queueNotice (r.port x.near).notices (.circuitUp c x.role x.reqTag x.width)))
              ∧ ((∃ n o, n ≠ b.toNat ∧ x.positions[n]? = some o ∧ o.dropped = false
                  ∧ ∀ j, o.current = some j → j ≠ i ∧ (r.lane j).state ≠ .active) →
                y.state = .training ∧ t.ports = r.ports))
          ∧ ∀ i o, p.replacement = some i → p.current = some o → i ≠ o → (r.lane i).state = .qualified →
            (r.lane i).place = some ⟨c, .replacement, b.toNat⟩ → (r.lane o).state = .active ∨ (r.lane o).state = .failing →
            ok = true → x.state = .repairing → p.dropped = false → r.Room 1 →
            ∃ t y, exec (.trained q a g b ok) s = .next t
              ∧ (t.lane i).state = .active ∧ (t.lane i).place = some ⟨c, .current, b.toNat⟩
              ∧ (t.lane i).run = (r.lane i).run + 1 ∧ t.boundTo i = some (x.near, p.hostLane)
              ∧ (t.lane o).state = .quarantined ∧ (t.lane o).place = none ∧ t.boundTo o = none
              ∧ ((r.lane o).failure = none → (t.lane o).peerFence = true ∧ t.placed = r.placed)
              ∧ (∀ w, (r.lane o).failure = some w →
                  (t.lane o).localFence = true ∧ t.placed = r.placed ++ [.fence (byteOf o.val) (.failure w)])
              ∧ (∀ j, j ≠ i → j ≠ o → t.lane j = r.lane j)
              ∧ t.circuit c = some y ∧ y.repairCount = min 255 (x.repairCount + 1)
              ∧ y.positions[b.toNat]? = some { p with
                  repair := .none, current := some i, replacement := none, attempts := 0, patience := none }
              ∧ ((∀ n u, n ≠ b.toNat → x.positions[n]? = some u →
                  u.repair = .none ∧ ∀ j, u.current = some j → (r.lane j).state ≠ .failing) →
                y.state = .up ∧ ((r.port x.near).link ≠ .absent →
                  (t.port x.near).notices = queueNotice (r.port x.near).notices (.circuitRepaired c))))

/-- R110, R111, R114, R115: LANE_FAIL at the origin sets the current lane's peer fence. In the UP phase a repair in
course goes on, and where none is in course one begins. In the setup phase the lane leaves the circuit as QUARANTINED
and a repair of its position begins. Either begins with the pool's head lane, CLAIMED, proposed with AMEND and counted
as an attempt, or with a SEEKING position where the pool is empty. A position that is dropped, absent, or without a
current lane, an answering record, a record not live and an unknown tag discard it. -/
def Obligations.LaneFailTaken : Prop :=
  ∀ (s r : State) (q a : Seq) (g : Tag) (b : Byte) (why : FailReason), s.InOrder q → r = s.counted a → s.Unmarked →
    (r.matchTag g = none → exec (.laneFail q a g b why) s = .next r)
    ∧ ∀ c x, r.matchTag g = some (c, x) →
      (x.role = .answer ∨ x.state = .proposed ∨ x.state = .closing ∨ x.positions[b.toNat]? = none →
        exec (.laneFail q a g b why) s = .next r)
      ∧ ∀ p, x.positions[b.toNat]? = some p →
        (p.dropped = true ∨ p.current = none → exec (.laneFail q a g b why) s = .next r)
        ∧ ∀ i, x.role = .origin → p.dropped = false → p.current = some i →
          (x.state = .up ∨ x.state = .repairing → p.repair ≠ .none →
            exec (.laneFail q a g b why) s = .next (r.setPeerFence i))
          ∧ ∀ (left : Position) (st : CircuitState), i ∉ r.pool → r.Room 1 →
            (x.state = .up ∨ x.state = .repairing) ∧ p.repair = .none ∧ p.attempts = 0 ∧ left = p ∧ st = .repairing
              ∨ x.state = .training ∧ p.repair ≠ .proposed ∧ p.attempts < 3
                ∧ (r.lane i).place = some ⟨c, .current, b.toNat⟩ ∧ left = { p with current := none } ∧ st = .training →
            ∃ t y, exec (.laneFail q a g b why) s = .next t ∧ t.circuit c = some y ∧ y.state = st
              ∧ (x.state ≠ .training → t.lane i = { r.lane i with peerFence := true })
              ∧ (x.state = .training → (t.lane i).state = .quarantined ∧ (t.lane i).peerFence = true
                  ∧ (t.lane i).place = none ∧ (t.lane i).training = none ∧ (t.lane i).run = (r.lane i).run + 1)
              ∧ (∀ j rest, r.pool = j :: rest → (t.lane j).state = .claimed
                ∧ (t.lane j).place = some ⟨c, .replacement, b.toNat⟩
                ∧ y.positions[b.toNat]? = some { left with
                    repair := .proposed, replacement := some j, attempts := p.attempts + 1, patience := none }
                ∧ t.placed = r.placed ++ [.amend x.tag b (some (byteOf j.val))])
              ∧ (r.pool = [] → t.placed = r.placed
                ∧ t.seeking = (r.seeking.filter fun o => decide (o ≠ (c, b.toNat))) ++ [(c, b.toNat)]
                ∧ y.positions[b.toNat]? = some { left with
                    repair := .seeking, replacement := none, patience := some r.params.repairPatience })

/-- R34, R44, R112, R116, R122: AMEND that names a lane: NO_CIRCUIT under an unknown tag, for a CLOSING record, and for
a position or lane that is not there; by the lane's state LANE_UNAVAILABLE, or LANE_CONFLICT on side A. A FREE lane, and
on side B one yielded by this side's own proposal, is taken by name and begins its run: in the UP phase as the
replacement, in the setup phase as the current lane, where a current lane still held leaves first as QUARANTINED. AMEND
without a lane is discarded for a position dropped or not there, and narrows any other: the position is dropped, its
current lane leaves as QUARANTINED, its replacement after it, and a host that had the circuit UP is told. -/
def Obligations.AmendTaken : Prop :=
  ∀ (s r : State) (q a : Seq) (g : Tag) (b l : Byte), s.InOrder q → r = s.counted a → s.Unmarked → r.CanSend →
    (r.matchTag g = none → ∀ o, exec (.amend q a g b o) s = .next (r.sent (.amendReply g b .noCircuit)))
    ∧ ∀ c x, r.matchTag g = some (c, x) →
      (x.state = .closing → ∀ o, exec (.amend q a g b o) s = .next (r.sent (.amendReply g b .noCircuit)))
      ∧ (x.role = .answer → x.live = true →
        (24 ≤ l.toNat ∨ (∀ p, x.positions[b.toNat]? = some p → p.dropped = true) →
          exec (.amend q a g b (some l)) s = .next (r.sent (.amendReply x.tag b .noCircuit)))
        ∧ ((∀ p, x.positions[b.toNat]? = some p → p.dropped = true) → exec (.amend q a g b none) s = .next r)
        ∧ (∀ p, x.positions[b.toNat]? = some p → p.dropped = false → r.NobodyWaits →
          ∃ t y, exec (.amend q a g b none) s = .next t ∧ t.circuit c = some y ∧ y.width = x.width - 1
            ∧ y.positions[b.toNat]? = some { p with
                dropped := true, repair := .none, current := none, replacement := none, attempts := 0, patience := none }
            ∧ (∀ i, p.current = some i → (t.lane i).state = .quarantined ∧ (t.lane i).place = none
                ∧ t.boundTo i = none
                ∧ (∀ w, (r.lane i).failure = some w → (t.lane i).localFence = true
                    ∧ .fence (byteOf i.val) (.failure w) ∈ t.placed)
                ∧ ((r.lane i).failure = none → (t.lane i).peerFence = true))
            ∧ (∀ k, p.replacement = some k → p.current ≠ some k → (r.lane k).state ≠ .quarantined → (r.lane k).Clean →
                (t.lane k).state = .free ∧ (t.lane k).place = none)
            ∧ (x.everUp = true → (r.port x.near).link ≠ .absent → (r.port x.near).notices.length < 14 →
                ∃ back, (t.port x.near).notices
                  = (r.port x.near).notices ++ .circuitNarrowed c (x.width - 1) :: back))
        ∧ ∀ p (i : LaneId), x.positions[b.toNat]? = some p → p.dropped = false → l.toNat = i.val →
          ((r.lane i).state ≠ .free → (r.lane i).state ≠ .claimed →
            exec (.amend q a g b (some l)) s = .next (r.sent (.amendReply x.tag b .laneUnavailable)))
          ∧ ((r.lane i).state = .claimed → r.side = .a →
            exec (.amend q a g b (some l)) s = .next (r.sent (.amendReply x.tag b .laneConflict)))
          ∧ ((r.lane i).state = .free → x.state = .up ∨ x.state = .repairing → p.replacement = none →
            ∃ t, exec (.amend q a g b (some l)) s = .next t
              ∧ (t.lane i).state = .training ∧ (t.lane i).place = some ⟨c, .replacement, b.toNat⟩
              ∧ (t.lane i).training = some (freshRecord r.params (r.lane i) 1)
              ∧ (∃ y, t.circuit c = some y ∧ y.state = .repairing
                ∧ y.positions[b.toNat]? = some { p with repair := .replacing, replacement := some i })
              ∧ t.pool = (r.pool.filter fun j => decide (j ≠ i))
              ∧ t.placed = r.placed ++ [.amendReply x.tag b .ok])
          ∧ ((r.lane i).state = .free ∨ (r.lane i).state = .claimed ∧ r.side = .b
                ∧ (∀ pl, (r.lane i).place = some pl → pl.slot ≠ c) →
            (x.state = .training ∧ (∀ o, p.current = some o → o ≠ i ∧ (r.lane o).failure = none
                ∧ (r.lane o).place = some ⟨c, .current, b.toNat⟩)
              ∨ (x.state = .up ∨ x.state = .repairing) ∧ p.replacement = none) →
            ∃ t y, exec (.amend q a g b (some l)) s = .next t ∧ t.circuit c = some y
              ∧ (t.lane i).state = .training ∧ (t.lane i).run = (r.lane i).run + 1
              ∧ (t.lane i).training = some (freshRecord r.params (r.lane i) 1)
              ∧ t.placed = r.placed ++ [.amendReply x.tag b .ok]
              ∧ ((r.lane i).state = .claimed → r.Yielded t i)
              ∧ (x.state = .training → y.state = .training
                ∧ (t.lane i).place = some ⟨c, .current, b.toNat⟩
                ∧ y.positions[b.toNat]? = some { p with repair := .replacing, current := some i }
                ∧ ∀ o, p.current = some o → (t.lane o).state = .quarantined ∧ (t.lane o).peerFence = true
                    ∧ (t.lane o).place = none)
              ∧ (x.state ≠ .training → y.state = .repairing
                ∧ (t.lane i).place = some ⟨c, .replacement, b.toNat⟩
                ∧ y.positions[b.toNat]? = some { p with repair := .replacing, replacement := some i })))

/-- R114, R117, R120: AMEND_REPLY for a position that is not PROPOSED, for an answering record, for a record not live,
and under an unknown tag is discarded; OK for a spare still named begins its run: as the replacement in the UP phase, as
the current lane in the setup phase. LANE_CONFLICT frees a spare still named to the pool head and LANE_UNAVAILABLE to
its tail, and a new pick follows, as it does where no spare is named. With no attempt left, and for NO_CIRCUIT, which
frees the spare to the pool head, the repair is exhausted: the position is dropped, with AMEND without a lane, where the
width allows it, and else the circuit begins a close. That the dropped position's attempts return to 0 is log entry
17's. -/
def Obligations.AmendReplyTaken : Prop :=
  ∀ (s r : State) (q a : Seq) (g : Tag) (b : Byte) (why : AmendResult), s.InOrder q → r = s.counted a → s.Unmarked →
    (r.matchTag g = none → exec (.amendReply q a g b why) s = .next r)
    ∧ ∀ c x, r.matchTag g = some (c, x) →
      (x.role = .answer ∨ x.live = false ∨ (∀ p, x.positions[b.toNat]? = some p → p.repair ≠ .proposed) →
        exec (.amendReply q a g b why) s = .next r)
      ∧ (∀ p i, x.role = .origin → x.live = true → x.positions[b.toNat]? = some p → p.repair = .proposed →
        p.replacement = some i → (r.lane i).place = some ⟨c, .replacement, b.toNat⟩ → why = .ok →
        ∃ t, exec (.amendReply q a g b why) s = .next t
          ∧ (t.lane i).state = .training ∧ (t.lane i).run = (r.lane i).run + 1
          ∧ (t.lane i).training = some (freshRecord r.params (r.lane i) 1)
          ∧ (x.state = .training → (t.lane i).place = some ⟨c, .current, b.toNat⟩
              ∧ t.circuit c = some { x with positions := x.positions.modify b.toNat fun p =>
                  { p with repair := .replacing, current := some i, replacement := none } })
          ∧ (x.state ≠ .training → (t.lane i).place = some ⟨c, .replacement, b.toNat⟩
              ∧ t.circuit c = some { x with positions := x.positions.modify b.toNat fun p =>
                  { p with repair := .replacing } }))
      ∧ ∀ (p : Position) (pool : List LaneId), x.role = .origin → x.live = true →
        x.positions[b.toNat]? = some p → p.repair = .proposed → x.lanes.Nodup → r.NobodyWaits → r.PoolMatches →
        r.Room 2 →
        (p.replacement = none ∧ pool = r.pool
          ∨ ∃ i, p.replacement = some i ∧ (r.lane i).place = some ⟨c, .replacement, b.toNat⟩
            ∧ (r.lane i).state = .claimed ∧ (r.lane i).Clean
            ∧ pool = if why = .laneUnavailable then r.pool ++ [i] else i :: r.pool) →
        (why = .ok → p.replacement = none → p.attempts < 3 →
          ∃ t, exec (.amendReply q a g b why) s = .next t ∧ r.Picked t c b.toNat x p r.pool [])
        ∧ (why = .laneConflict ∨ why = .laneUnavailable → p.attempts < 3 →
          ∃ t, exec (.amendReply q a g b why) s = .next t
            ∧ r.Picked t c b.toNat x { p with replacement := none } pool []
            ∧ ∀ i, p.replacement = some i → i ∈ t.pool → (t.lane i).state = .free ∧ (t.lane i).place = none)
        ∧ (why = .noCircuit ∨ 3 ≤ p.attempts ∧ (why ≠ .ok ∨ p.replacement = none) →
          (∀ j ∈ x.lanes, (r.lane j).state ≠ .free) →
          (x.minWidth ≤ x.width - 1 → p.dropped = false →
            ∃ t y, exec (.amendReply q a g b why) s = .next t ∧ t.circuit c = some y ∧ y.width = x.width - 1
              ∧ y.positions[b.toNat]? = some { p with
                  dropped := true, repair := .none, current := none, replacement := none, attempts := 0,
                  patience := none }
              ∧ t.pool = pool ∧ (∃ back, t.placed = r.placed ++ .amend x.tag b none :: back)
              ∧ (∀ i, p.replacement = some i → (t.lane i).state = .free ∧ (t.lane i).place = none)
              ∧ ∀ o, p.current = some o → (t.lane o).state = .quarantined ∧ (t.lane o).place = none)
          ∧ (x.width - 1 < x.minWidth →
            ∃ t, exec (.amendReply q a g b why) s = .next t ∧ t.pool = pool
              ∧ r.CloseBegun t c
                  { x with positions := x.positions.modify b.toNat fun p => { p with replacement := none } }
                  (if x.everUp then .noSpare else .training)))

/-- R15, R23, R41 to R44, R46: CLOSE under an unknown tag is answered CLOSED; CLOSE for any record, and CLOSED for a
CLOSING one, make the slot VACANT with its generation advanced while nobody waits. The lanes leave: fenced locally with
FENCE where they have a failure reason, QUARANTINED with a fence, FREE without, at the pool's tail in position order, or
at its head where this side's close was WITHDRAWN. CLOSE is answered CLOSED behind those messages, and the near port
gets the notice of R46; that a combination R46 has no row for gives no notice is the model's choice (log entry 15).
CLOSED for any other record or an unknown tag is discarded. -/
def Obligations.ClosesComplete : Prop :=
  ∀ (s r : State) (q a : Seq) (g : Tag) (why : CloseReason), s.InOrder q → r = s.counted a → s.Unmarked →
    (r.matchTag g = none → exec (.closed q a g) s = .next r
      ∧ (r.CanSend → exec (.close q a g why) s = .next (r.sent (.closed g))))
    ∧ ∀ c x, r.matchTag g = some (c, x) →
      (x.state ≠ .closing → exec (.closed q a g) s = .next r)
      ∧ (r.NobodyWaits → ∃ t, exec (.close q a g why) s = .next t
          ∧ t.slots.get c = ⟨(r.slots.get c).gen + 1, none⟩)
      ∧ (x.state = .closing → r.NobodyWaits → ∃ t, exec (.closed q a g) s = .next t
          ∧ t.slots.get c = ⟨(r.slots.get c).gen + 1, none⟩)
      ∧ ∀ (m : Instr) (back : List Msg) (freed : List LaneId) (told : Option Notice),
        r.NobodyWaits → r.PoolMatches → x.lanes.Nodup → x.tag = g → r.Room (x.lanes.length + 1) →
        (∀ i ∈ x.lanes, (r.lane i).state ≠ .free ∧ (r.lane i).state ≠ .quarantined) →
        (m = .close q a g why ∧ back = [.closed g] ∨ m = .closed q a g ∧ x.state = .closing ∧ back = []) →
        (freed = x.lanes.filter fun i => decide (r.lane i).Clean) →
        (told = if x.state = .closing then
            match x.everUp, x.role, x.closeReason with
            | true, _, some .hostClose => some (.circuitClosed c .hostClose)
            | true, _, some .noSpare => some (.circuitClosed c .noSpare)
            | false, .origin, some .training => x.reqTag.map fun n => .openFailed n .training
            | _, _, _ => none
          else
            match x.everUp, x.role, why with
            | true, _, .hostClose => some (.circuitClosed c .peerClose)
            | true, _, .hostGone => some (.circuitClosed c .peerHostGone)
            | true, .answer, .noSpare => some (.circuitClosed c .noSpare)
            | true, .answer, .training => some (.circuitClosed c .noSpare)
            | false, .origin, .hostClose => x.reqTag.map fun n => .openFailed n .peerClose
            | false, .origin, .hostGone => x.reqTag.map fun n => .openFailed n .peerHostGone
            | _, _, _ => none) →
        ∃ t, exec m s = .next t
          ∧ t.pool = (if x.state = .closing ∧ x.closeReason = some .withdrawn then freed ++ r.pool else r.pool ++ freed)
          ∧ (∀ i ∈ x.lanes, (t.lane i).place = none ∧ (t.lane i).peerTrained = false
            ∧ (t.lane i).state = (if (r.lane i).Clean then .free else .quarantined)
            ∧ ((r.lane i).failure ≠ none → (t.lane i).localFence = true
                ∧ (t.lane i).failCount = min 255 ((r.lane i).failCount + 1)))
          ∧ t.placed = r.placed ++ (x.lanes.filterMap fun i => (r.lane i).failure.map fun w =>
              Msg.fence (byteOf i.val) (.failure w)) ++ back
          ∧ (∀ e ∈ t.queue, e.slot ≠ some c ∨ x.state ≠ .proposed)
          ∧ ((r.port x.near).link ≠ .absent → (t.port x.near).notices
              = match told with
                | none => (r.port x.near).notices
                | some n => queueNotice (r.port x.near).notices n)

/-- R13, R14, R113, R114, R127: FENCE sets the peer fence: alone where the lane is OFFLINE, QUARANTINED, ACTIVE, FAILING
or RELEASING; with the lane out of the pool as QUARANTINED where it is FREE; and with the lane out of its circuit as
QUARANTINED where it is CLAIMED, TRAINING or QUALIFIED, with no message, and at a live origin position whose AMEND is
not awaited with a pick. UNFENCE clears it, and a QUARANTINED lane without a local fence becomes FREE at the pool tail.
A lane above T23, a fence set already, and a fence clear already change nothing. -/
def Obligations.PeerFences : Prop :=
  ∀ (s r : State) (q a : Seq) (b : Byte) (why : FenceReason), s.InOrder q → r = s.counted a → s.Unmarked →
    (24 ≤ b.toNat → exec (.fence q a b why) s = .next r ∧ exec (.unfence q a b) s = .next r)
    ∧ ∀ i : LaneId, b.toNat = i.val →
      ((r.lane i).peerFence = true → exec (.fence q a b why) s = .next r)
      ∧ ((r.lane i).peerFence = false → exec (.unfence q a b) s = .next r)
      ∧ ((r.lane i).peerFence = false → (r.lane i).state = .offline ∨ (r.lane i).state = .quarantined
          ∨ (r.lane i).state = .active ∨ (r.lane i).state = .failing ∨ (r.lane i).state = .releasing →
        exec (.fence q a b why) s = .next (r.modLane i fun l => { l with peerFence := true }))
      ∧ ((r.lane i).peerFence = false → (r.lane i).state = .free →
        ∃ t, exec (.fence q a b why) s = .next t ∧ (t.lane i).state = .quarantined ∧ (t.lane i).peerFence = true
          ∧ (t.lane i).run = (r.lane i).run + 1 ∧ (∀ j, j ≠ i → t.lane j = r.lane j)
          ∧ t.pool = r.pool.filter fun j => decide (j ≠ i))
      ∧ (∀ pl x p left, (r.lane i).peerFence = false →
          (r.lane i).state = .claimed ∨ (r.lane i).state = .training ∨ (r.lane i).state = .qualified →
          (r.lane i).place = some pl → r.circuit pl.slot = some x → x.positions[pl.position]? = some p →
          (pl.role = .current ∧ left = { p with current := none }
            ∨ pl.role = .replacement ∧ left = { p with replacement := none }) →
        (x.role = .answer ∨ x.state = .proposed ∨ p.repair = .proposed →
          ∃ t y, exec (.fence q a b why) s = .next t ∧ (t.lane i).state = .quarantined ∧ (t.lane i).peerFence = true
            ∧ (t.lane i).place = none ∧ (t.lane i).training = none ∧ (t.lane i).run = (r.lane i).run + 1
            ∧ (∀ j, j ≠ i → t.lane j = r.lane j) ∧ t.placed = r.placed
            ∧ t.circuit pl.slot = some y ∧ y.state = x.state ∧ y.positions[pl.position]? = some left)
        ∧ (x.role = .origin → x.live = true → p.repair ≠ .proposed → p.attempts < 3 → i ∉ r.pool → r.pool.Nodup →
          r.Room 1 →
          ∃ t, exec (.fence q a b why) s = .next t ∧ (t.lane i).state = .quarantined ∧ (t.lane i).peerFence = true
            ∧ (t.lane i).place = none ∧ (t.lane i).training = none ∧ (t.lane i).run = (r.lane i).run + 1
            ∧ (∀ j, j ≠ i → j ∉ r.pool → t.lane j = r.lane j)
            ∧ r.Picked t pl.slot pl.position x left r.pool []))
      ∧ ((r.lane i).peerFence = true → (r.lane i).state ≠ .quarantined ∨ (r.lane i).localFence = true →
        exec (.unfence q a b) s = .next (r.modLane i fun l => { l with peerFence := false }))
      ∧ ((r.lane i).peerFence = true → (r.lane i).state = .quarantined → (r.lane i).localFence = false →
          r.NobodyWaits →
        ∃ t, exec (.unfence q a b) s = .next t ∧ (t.lane i).state = .free ∧ (t.lane i).peerFence = false
          ∧ (t.lane i).failure = none ∧ (∀ j, j ≠ i → t.lane j = r.lane j)
          ∧ t.pool = (r.pool.filter fun j => decide (j ≠ i)) ++ [i])

/-! ## Measurement -/

/-- R72, R73, R74, R75, R76, R100, R104: a dwell result frees its unit, a stale one does nothing else but let the grant
rule run: the lowest idle unit takes the oldest grantable TRAIN request, or where there is none the oldest grantable
HEALTH request, a TRAIN dwell begins at its record's current preset, and the rule goes on until no unit is idle or no
request is grantable. A current HEALTH result of an ACTIVE lane: fom takes the figure, 0 for NO_LOCK; strikes return to
0 on a figure at or above H, and rise by 1 otherwise while they stay below the strike limit; at the limit the lane is
declared FAILING with reason STRIKES, logged with that figure. -/
def Obligations.HealthResultTaken : Prop :=
  ∀ (s freed : State) (u : UnitId) (d : Dwell) (o : DwellOutcome), s.unit u = some d →
    freed = { s with units := s.units.set u none } → s.Unmarked →
    (d.run ≠ (s.lane d.lane).run → s.dwellQueue = [] → exec (.dwellResult u o) s = .next freed)
    ∧ (d.run ≠ (s.lane d.lane).run → ∃ t, exec (.dwellResult u o) s = .next t
      ∧ ((∀ v, t.unit v ≠ none) ∨ ∀ n ∈ t.dwellQueue, ∃ v w, t.unit v = some w ∧ w.lane = n.lane)
      ∧ ∀ (v : UnitId) (front rest : List Dwell) (n : Dwell) (busy : LaneId → Prop),
        freed.unit v = none → (∀ w, w < v → freed.unit w ≠ none) → s.dwellQueue = front ++ n :: rest →
        (∀ i, busy i ↔ ∃ w e, freed.unit w = some e ∧ e.lane = i) → ¬ busy n.lane →
        (n.purpose = .train ∧ (∀ e ∈ front, e.purpose = .train → busy e.lane)
          ∨ n.purpose = .health ∧ (∀ e ∈ s.dwellQueue, e.purpose = .train → busy e.lane)
            ∧ ∀ e ∈ front, e.purpose = .health → busy e.lane) →
        t.unit v = some n
        ∧ (n.purpose = .train → ∀ rec, (s.lane n.lane).training = some rec →
            (t.lane n.lane).preset = some rec.current
            ∧ (t.lane n.lane).applied = some (s.params.presets.get rec.current))
        ∧ (n.purpose = .health → t.lane n.lane = s.lane n.lane)
        ∧ ((∀ w, w ≠ v → freed.unit w ≠ none) →
            t.units = freed.units.set v (some n) ∧ t.dwellQueue = front ++ rest))
    ∧ (s.dwellQueue = [] → d.purpose = .health → d.run = (s.lane d.lane).run → (s.lane d.lane).state = .active →
      (∀ f, o = .fom f → s.params.hold ≤ f.toNat →
        exec (.dwellResult u o) s
          = .next (freed.modLane d.lane fun l => { l with fom := some f, strikes := 0 }))
      ∧ (∀ f, (o = .fom f ∧ f.toNat < s.params.hold) ∨ (o = .noLock ∧ f = 0) →
          ((s.lane d.lane).strikes + 1 < s.params.strikeLimit →
            exec (.dwellResult u o) s
              = .next (freed.modLane d.lane fun l => { l with fom := some f, strikes := l.strikes + 1 }))
          ∧ ∀ pl x p, s.params.strikeLimit ≤ (s.lane d.lane).strikes + 1 → (s.lane d.lane).place = some pl →
            s.circuit pl.slot = some x → x.state = .up ∨ x.state = .repairing →
            x.positions[pl.position]? = some p → (p.repair = .none → p.attempts = 0) → d.lane ∉ s.pool → s.Room 1 →
            ∃ t, exec (.dwellResult u o) s = .next t ∧ t.unit u = none
              ∧ t.lane d.lane = { s.lane d.lane with
                  state := .failing, failure := some .strikes, fom := some f, strikes := 0,
                  run := (s.lane d.lane).run + 1, training := none }
              ∧ (∃ y, t.circuit pl.slot = some y ∧ (p.dropped = false → p.repair = .none → y.state = .repairing))
              ∧ t.ring.getLast?.map (fun e => (e.kind, e.lane, e.tag, e.detail))
                  = some (.laneFailing, some d.lane, some x.tag, detail2 0x01 f)))

/-- R83, R85 to R87, R89, R90: a current TRAIN result. In ASCEND and DESCEND it is scored: the first result of an
attempt and a greater figure make the preset measured the best, with no misses, and any other, a tie included, is a
miss. ASCEND goes one preset up until the misses reach the look-beyond count or P11 was measured; it then gives way to
DESCEND, one below the start preset, where the start preset above P0 is the best, and to CONFIRM at the best preset
otherwise. DESCEND goes one preset down until the misses reach that count or P0 was measured; CONFIRM follows. The next
dwell is asked for or begun. A CONFIRM below Q with attempts left starts the next attempt afresh with the run number
advanced; without attempts left TRAINED(FAIL) and FENCE go out, LANE_TRAIN_FAIL is logged with the figure, the lane
leaves as QUARANTINED with its local fence set, and at the origin its position takes the pool's head lane or seeks. -/
def Obligations.TrainResultTaken : Prop :=
  ∀ (s : State) (u : UnitId) (d : Dwell) (o : DwellOutcome) (rec : TrainRec) (f : Byte),
    s.unit u = some d → d.purpose = .train → d.run = (s.lane d.lane).run → (s.lane d.lane).training = some rec →
    s.Unmarked → s.DwellsCurrent → s.dwellQueued d.lane = false →
    (f = match o with | .fom v => v | .noLock => 0) →
    (rec.phase ≠ .confirm → ∀ (best : Option PresetId) (bestFom : Byte) (misses : Nat),
        (rec.bestFom = none ∧ best = some rec.current ∧ bestFom = f ∧ misses = rec.misses
          ∨ ∃ v, rec.bestFom = some v
            ∧ (v.toNat < f.toNat ∧ best = some rec.current ∧ bestFom = f ∧ misses = 0
              ∨ f.toNat ≤ v.toNat ∧ best = rec.best ∧ bestFom = v ∧ misses = rec.misses + 1)) →
        ∃ t n, exec (.dwellResult u o) s = .next t
        ∧ (t.lane d.lane).training = some n ∧ (t.lane d.lane).state = (s.lane d.lane).state
        ∧ (t.lane d.lane).run = (s.lane d.lane).run ∧ (t.lane d.lane).fom = (s.lane d.lane).fom
        ∧ (t.dwellQueued d.lane = true ∨ ∃ v, t.unit v = some ⟨d.lane, .train, (s.lane d.lane).run⟩)
        ∧ n.attempt = rec.attempt ∧ n.start = rec.start ∧ n.lookBeyond = rec.lookBeyond
        ∧ n.best = best ∧ n.bestFom = some bestFom
        ∧ (rec.phase = .ascend → misses ≠ rec.lookBeyond → rec.current ≠ 11 →
            n.phase = .ascend ∧ n.current.val = rec.current.val + 1 ∧ n.misses = misses)
        ∧ (rec.phase = .ascend → misses = rec.lookBeyond ∨ rec.current = 11 →
            (best = some rec.start → rec.start ≠ 0 →
              n.phase = .descend ∧ n.current.val + 1 = rec.start.val ∧ n.misses = 0)
            ∧ ∀ m, best = some m → m ≠ rec.start ∨ rec.start = 0 → n.phase = .confirm ∧ n.current = m)
        ∧ (rec.phase = .descend → misses ≠ rec.lookBeyond → rec.current ≠ 0 →
            n.phase = .descend ∧ n.current.val + 1 = rec.current.val ∧ n.misses = misses)
        ∧ (rec.phase = .descend → misses = rec.lookBeyond ∨ rec.current = 0 →
            ∀ m, best = some m → n.phase = .confirm ∧ n.current = m))
    ∧ (rec.phase = .confirm → f.toNat < s.params.qualify → rec.attempt < s.params.trainAttempts →
        ∃ t, exec (.dwellResult u o) s = .next t
        ∧ (t.lane d.lane).run = (s.lane d.lane).run + 1 ∧ (t.lane d.lane).state = (s.lane d.lane).state
        ∧ (t.lane d.lane).fom = (s.lane d.lane).fom
        ∧ ∃ n, (t.lane d.lane).training = some n ∧ n.attempt = rec.attempt + 1 ∧ n.phase = .ascend
            ∧ n.current = n.start ∧ n.best = none ∧ n.bestFom = none ∧ n.misses = 0
            ∧ (1 ≤ rec.attempt → n.start = s.params.startPreset))
    ∧ (rec.phase = .confirm → f.toNat < s.params.qualify → s.params.trainAttempts ≤ rec.attempt →
        ∀ pl x p, (s.lane d.lane).place = some pl → s.circuit pl.slot = some x → x.positions[pl.position]? = some p →
        x.role = .answer ∨ x.role = .origin ∧ x.live = true ∧ p.repair ≠ .proposed ∧ p.attempts < 3 →
        d.lane ∉ s.pool → s.Room 3 →
        ∃ t more, exec (.dwellResult u o) s = .next t
        ∧ (t.lane d.lane).state = .quarantined ∧ (t.lane d.lane).localFence = true ∧ (t.lane d.lane).place = none
        ∧ (t.lane d.lane).training = none ∧ (t.lane d.lane).run = (s.lane d.lane).run + 1
        ∧ (t.lane d.lane).failCount = min 255 ((s.lane d.lane).failCount + 1)
        ∧ (∃ e ∈ t.ring, e.kind = .laneTrainFail ∧ e.lane = some d.lane ∧ e.tag = some x.tag
            ∧ e.detail = f.zeroExtend 16)
        ∧ t.placed = s.placed ++ .trained x.tag (byteOf pl.position) false :: .fence (byteOf d.lane.val) .training :: more
        ∧ (x.role = .answer → more = [])
        ∧ (x.role = .origin → s.pool = [] → more = [] ∧ (pl.slot, pl.position) ∈ t.seeking)
        ∧ (x.role = .origin → ∀ j rest, s.pool = j :: rest →
            more = [.amend x.tag (byteOf pl.position) (some (byteOf j.val))] ∧ (t.lane j).state = .claimed
            ∧ (t.lane j).place = some ⟨pl.slot, .replacement, pl.position⟩))

/-- R4, R10, R36, R39, R88: a CONFIRM figure of at least Q succeeds: preset and last good preset are the preset
confirmed, the fom is the figure, TRAINED(OK) goes out, and the run number advances once. The lane is QUALIFIED where
its peer has not yet reported; where it has, a current lane in the setup phase is ACTIVE and bound at once, and the
circuit becomes UP, and its host is told, where every other position is ready. -/
def Obligations.ConfirmQualifies : Prop :=
  ∀ (s : State) (u : UnitId) (d : Dwell) (f : Byte) (rec : TrainRec) (pl : Place) (x : Circuit),
    s.unit u = some d → d.purpose = .train → d.run = (s.lane d.lane).run → (s.lane d.lane).training = some rec →
    rec.phase = .confirm → s.params.qualify ≤ f.toNat → (s.lane d.lane).place = some pl → s.circuit pl.slot = some x →
    s.Unmarked → s.CanSend →
    ((s.lane d.lane).peerTrained = false →
      ∃ t, exec (.dwellResult u (.fom f)) s = .next t
      ∧ (t.lane d.lane).state = .qualified ∧ (t.lane d.lane).preset = some rec.current
      ∧ (t.lane d.lane).lastGood = some rec.current ∧ (t.lane d.lane).fom = some f
      ∧ (t.lane d.lane).training = none ∧ (t.lane d.lane).run = (s.lane d.lane).run + 1
      ∧ t.placed = s.placed ++ [.trained x.tag (byteOf pl.position) true])
    ∧ ∀ p, (s.lane d.lane).peerTrained = true → (s.lane d.lane).state = .training → pl.role = .current →
      x.state = .training → x.positions[pl.position]? = some p → p.dropped = false → p.current = some d.lane →
      p.repair = .none ∨ p.repair = .replacing →
      ∃ t y, exec (.dwellResult u (.fom f)) s = .next t
      ∧ (t.lane d.lane).state = .active ∧ (t.lane d.lane).preset = some rec.current
      ∧ (t.lane d.lane).lastGood = some rec.current ∧ (t.lane d.lane).fom = some f
      ∧ (t.lane d.lane).training = none ∧ (t.lane d.lane).run = (s.lane d.lane).run + 1
      ∧ t.placed = s.placed ++ [.trained x.tag (byteOf pl.position) true]
      ∧ t.boundTo d.lane = some (x.near, p.hostLane) ∧ t.circuit pl.slot = some y
      ∧ (s.OthersActive x pl.position → y.state = .up ∧ y.everUp = true
        ∧ ((s.port x.near).link ≠ .absent → (t.port x.near).notices
            = queueNotice (s.port x.near).notices (.circuitUp pl.slot x.role x.reqTag x.width)))

/-- R38, R102, R104, R110, R112, R114, R115: a loss-of-lock report for an ACTIVE lane declares it FAILING: reason
LOCK_LOST, strikes 0, run number advanced, its request cancelled and LANE_FAILING logged; a position already in repair
changes no further. At a position in NONE of the UP phase the circuit is REPAIRING: at the origin a repair begins with
the pool's head lane, CLAIMED and proposed with AMEND, or in SEEKING where the pool is empty, and the answering side
places LANE_FAIL. In the setup phase the lane leaves at once as QUARANTINED with its local fence set and FENCE placed,
and its position has lost it. For a lane in any other state the report is discarded. -/
def Obligations.LossOfLockTaken : Prop :=
  ∀ (s : State) (i : LaneId),
    ((s.lane i).state ≠ .active → exec (.lossOfLock i) s = .next s)
    ∧ ∀ pl x p, (s.lane i).state = .active → s.Unmarked → (s.lane i).place = some pl → s.circuit pl.slot = some x →
        x.positions[pl.position]? = some p →
        (x.state = .repairing → p.repair ≠ .none →
          ∃ t, exec (.lossOfLock i) s = .next t
          ∧ t.lane i = { s.lane i with
              state := .failing, failure := some .lockLost, strikes := 0, run := (s.lane i).run + 1, training := none }
          ∧ (∀ j, j ≠ i → t.lane j = s.lane j) ∧ (∀ c, t.circuit c = s.circuit c)
          ∧ t.dwellQueue = (s.dwellQueue.filter fun d => decide (d.lane ≠ i))
          ∧ t.ring.getLast?.map (fun e => (e.kind, e.lane, e.tag, e.detail))
              = some (.laneFailing, some i, some x.tag, detail2 0x02 0))
        ∧ (x.state = .up ∨ x.state = .repairing → p.repair = .none → p.attempts = 0 → p.dropped = false → i ∉ s.pool →
            s.Room 1 →
          ∃ t y, exec (.lossOfLock i) s = .next t ∧ t.circuit pl.slot = some y ∧ y.state = .repairing
          ∧ t.lane i = { s.lane i with
              state := .failing, failure := some .lockLost, strikes := 0, run := (s.lane i).run + 1, training := none }
          ∧ t.boundTo i = s.boundTo i
          ∧ (x.state = .up → (s.port x.near).link ≠ .absent →
              (t.port x.near).notices = queueNotice (s.port x.near).notices (.circuitRepairing pl.slot))
          ∧ (x.role = .answer → y.positions = x.positions
            ∧ t.placed = s.placed ++ [.laneFail x.tag (byteOf pl.position) .lockLost])
          ∧ (x.role = .origin → s.pool = [] → t.placed = s.placed ∧ (pl.slot, pl.position) ∈ t.seeking
            ∧ y.positions[pl.position]? = some { p with
                repair := .seeking, replacement := none, patience := some s.params.repairPatience })
          ∧ (x.role = .origin → ∀ j rest, s.pool = j :: rest → (t.lane j).state = .claimed
            ∧ (t.lane j).place = some ⟨pl.slot, .replacement, pl.position⟩
            ∧ y.positions[pl.position]? = some { p with
                repair := .proposed, replacement := some j, attempts := 1, patience := none }
            ∧ t.placed = s.placed ++ [.amend x.tag (byteOf pl.position) (some (byteOf j.val))]))
        ∧ (x.state = .training → pl.role = .current → p.current = some i → p.repair = .none → p.attempts < 3 →
            i ∉ s.pool → s.Room 2 →
          ∃ t y more, exec (.lossOfLock i) s = .next t ∧ t.circuit pl.slot = some y ∧ y.state = .training
          ∧ (t.lane i).state = .quarantined ∧ (t.lane i).localFence = true ∧ (t.lane i).place = none
          ∧ (t.lane i).failure = some .lockLost ∧ (t.lane i).failCount = min 255 ((s.lane i).failCount + 1)
          ∧ t.boundTo i = none ∧ t.placed = s.placed ++ .fence (byteOf i.val) (.failure .lockLost) :: more
          ∧ (x.role = .answer → more = [.laneFail x.tag (byteOf pl.position) .lockLost]
            ∧ y.positions[pl.position]? = some { p with current := none })
          ∧ (x.role = .origin → s.pool = [] → more = [] ∧ (pl.slot, pl.position) ∈ t.seeking
            ∧ y.positions[pl.position]? = some { p with
                current := none, repair := .seeking, replacement := none, patience := some s.params.repairPatience })
          ∧ (x.role = .origin → ∀ j rest, s.pool = j :: rest → (t.lane j).state = .claimed
            ∧ more = [.amend x.tag (byteOf pl.position) (some (byteOf j.val))]
            ∧ y.positions[pl.position]? = some { p with
                current := none, repair := .proposed, replacement := some j, attempts := p.attempts + 1,
                patience := none }))

/-- R97 to R99: a sweep tick advances the sweep count and starts the timer again; while the trunk is not UP and nobody
waits it does nothing else; an ACTIVE lane without a request gets one, or a dwell begins for it. An ACTIVE lane whose
request is still queued misses the sweep, which its count shows up to 255; no other lane's count changes, and one
SWEEP_MISSED entry gives how many missed, where any did. -/
def Obligations.SweepTickWork : Prop :=
  ∀ (s : State) (ms : Nat), s.sweepTimer = .running ms →
    ∃ t, exec .sweepTick s = .next t ∧ t.sweepCount = s.sweepCount + 1
      ∧ t.sweepTimer = .running s.params.sweepInterval
      ∧ (s.trunk ≠ .up → s.NobodyWaits → s.Unmarked → (∀ i, (s.lane i).state ≠ .active) →
          t = { s with sweepCount := s.sweepCount + 1, sweepTimer := .running s.params.sweepInterval })
      ∧ (∀ i, s.trunk = .up → s.NobodyWaits → s.Unmarked → (∀ j, (s.lane j).localFence = false) →
          (s.lane i).state = .active → s.dwellQueue = [] →
          t.dwellQueued i = true ∨ ∃ v, t.unit v = some ⟨i, .health, (s.lane i).run⟩)
      ∧ (s.NobodyWaits → s.Unmarked → (∀ j, (s.lane j).localFence = false) →
          ∀ missed : List LaneId,
          missed = (indexes 24).filter (fun i => decide ((s.lane i).state = .active) && s.dwellQueued i) →
          (∀ i, (t.lane i).missed = if i ∈ missed then min 255 ((s.lane i).missed + 1) else (s.lane i).missed)
          ∧ (missed = [] → t.ring = s.ring)
          ∧ (missed ≠ [] → t.ring.getLast?.map (fun e => (e.kind, e.lane, e.tag, e.sweeps, e.detail))
              = some (.sweepMissed, none, none, s.sweepCount + 1, BitVec.ofNat 16 missed.length)))

/-- R12: the tick at which a quarantine age reaches 0: the local fence is cleared, the age is absent, the fail count
stays, and a QUARANTINED lane without a peer fence is FREE. QUARANTINE_RELEASE names the sweep tick (log entry 6). -/
def Obligations.QuarantineReleased : Prop :=
  ∀ (s : State) (ms : Nat) (i : LaneId), s.sweepTimer = .running ms → s.trunk = .up → (s.lane i).localFence = true →
    (s.lane i).age = some 1 → s.NobodyWaits → s.Unmarked → s.CanSend →
    ∃ t, exec (.quarantineRelease i) s = .next t ∧ exec .sweepTick s = .next t
      ∧ (t.lane i).localFence = false ∧ (t.lane i).age = none ∧ (t.lane i).failCount = (s.lane i).failCount
      ∧ ((s.lane i).state = .quarantined → (s.lane i).peerFence = false → (t.lane i).state = .free ∧ i ∈ t.pool)
      ∧ ((s.lane i).state ≠ .quarantined ∨ (s.lane i).peerFence = true → (t.lane i).state = (s.lane i).state)

/-- R58, R61: a sweep tick, whatever the trunk state: the patience of every WAITING entry falls by 1, and one that has
none left leaves the queue; the others keep their order, PROPOSED ones as they stand. Each port is told OPEN_EXPIRED of
its entries in queue order. A WAITING entry that stays changes otherwise only where the scan of an UP trunk serves it.
OPEN_EXPIRED names the sweep tick (log entry 6). -/
def Obligations.OpenExpires : Prop :=
  ∀ (s : State) (ms : Nat) (gone kept : List Entry), s.sweepTimer = .running ms → s.seeking = [] → s.Unmarked →
    (∀ j, (s.lane j).localFence = false) → (s.trunk = .up → s.Room s.queue.length) →
    gone = s.queue.filter (fun e => decide (e.slot = none) && decide (e.patience ≤ 1)) →
    kept = s.queue.filterMap (fun e =>
      if e.slot ≠ none then some e
      else if e.patience ≤ 1 then none
      else some { e with patience := e.patience - 1 }) →
    ∃ t, exec .sweepTick s = .next t ∧ (∀ e ∈ gone, exec (.openExpired e.port e.tag) s = .next t)
      ∧ t.queue.length = kept.length
      ∧ (∀ (n : Nat) (e : Entry), kept[n]? = some e → t.queue[n]? = some e
          ∨ s.trunk = .up ∧ e.slot = none ∧ ∃ c, t.queue[n]? = some { e with slot := some c, reserved := [] })
      ∧ ∀ h, (s.port h).link ≠ .absent → (t.port h).notices
          = ((gone.filter fun e => e.port = h).map fun e => Notice.openExpired e.tag).foldl queueNotice (s.port h).notices

/-- R115, R119 to R121: the tick at which a SEEKING position's patience reaches 0: its repair is exhausted. A circuit
wide enough narrows: the position is dropped, leaves the seeking list, and AMEND without a lane goes out; in the UP
phase its current lane leaves as QUARANTINED, fenced locally with FENCE where it has a failure reason and by the peer
fence otherwise, and a host that had the circuit UP is told; in the setup phase there is none. Any other circuit begins
a close, NO_SPARE where it has been up and TRAINING otherwise. That the dropped position's attempts return to 0 is the
model's choice (log entry 17). SEEK_EXHAUSTED names the sweep tick (log entry 6). -/
def Obligations.SeekExhausts : Prop :=
  ∀ (s : State) (ms : Nat) (c : SlotId) (b : Byte) (x : Circuit) (p : Position),
    s.sweepTimer = .running ms → s.seeking = [(c, b.toNat)] → s.circuit c = some x →
    x.state = .repairing ∨ x.state = .training → x.role = .origin → x.positions[b.toNat]? = some p →
    p.repair = .seeking → p.patience = some 1 → p.dropped = false → p.replacement = none →
    (∀ e ∈ s.queue, e.slot ≠ none) → s.Unmarked → s.CanSend → (∀ j, (s.lane j).localFence = false) →
    (x.minWidth ≤ x.width - 1 →
      ∃ t y more, exec (.seekExhausted c b.toNat) s = .next t ∧ exec .sweepTick s = .next t ∧ t.seeking = []
      ∧ t.circuit c = some y ∧ y.width = x.width - 1
      ∧ y.positions[b.toNat]? = some { p with
          dropped := true, repair := .none, current := none, attempts := 0, patience := none }
      ∧ t.placed = s.placed ++ .amend x.tag b none :: more
      ∧ (p.current = none → more = [])
      ∧ (∀ i, p.current = some i → (t.lane i).state = .quarantined ∧ (t.lane i).place = none ∧ t.boundTo i = none
        ∧ ((s.lane i).failure = none → (t.lane i).peerFence = true ∧ more = [])
        ∧ ∀ w, (s.lane i).failure = some w →
            (t.lane i).localFence = true ∧ more = [.fence (byteOf i.val) (.failure w)])
      ∧ (x.everUp = true → (s.port x.near).link ≠ .absent → (s.port x.near).notices.length < 14 →
        ∃ back, (t.port x.near).notices = (s.port x.near).notices ++ .circuitNarrowed c (x.width - 1) :: back))
    ∧ (x.width - 1 < x.minWidth →
      ∃ t, exec (.seekExhausted c b.toNat) s = .next t ∧ exec .sweepTick s = .next t
      ∧ s.CloseBegun t c x (if x.everUp then .noSpare else .training))
end

