-- ==== Sys2Proof/Laws/State.lean ====
section
/-! SUPPORT. Sys2Proof/Laws/State.lean: the fixed-size tables, and one lemma for each field that each primitive update
of State leaves alone, so that no proof unfolds a record update. -/

namespace Sys2Proof

/-! ### Tables -/

@[simp] theorem Table.get_set_self {n : Nat} {α : Type} (t : Table n α) (i : Fin n) (x : α) :
    (t.set i x).get i = x := by
  simp [Table.get, Table.set]

theorem Table.get_set_ne {n : Nat} {α : Type} (t : Table n α) {i j : Fin n} (x : α) (h : j ≠ i) :
    (t.set i x).get j = t.get j := by
  simp [Table.get, Table.set, Fin.val_ne_of_ne h.symm]

theorem Table.get_set {n : Nat} {α : Type} (t : Table n α) (i j : Fin n) (x : α) :
    (t.set i x).get j = if j = i then x else t.get j := by
  by_cases h : j = i
  · subst h; simp
  · simp [h, Table.get_set_ne]

@[simp] theorem Table.get_fill (n : Nat) {α : Type} (x : α) (i : Fin n) : (Table.fill n x).get i = x := by
  simp [Table.get, Table.fill]

@[simp] theorem Table.get_map {n : Nat} {α β : Type} (f : α → β) (t : Table n α) (i : Fin n) :
    (t.map f).get i = f (t.get i) := by
  simp [Table.get, Table.map]

theorem Table.ext_get {n : Nat} {α : Type} {t u : Table n α} (h : ∀ i, t.get i = u.get i) : t = u := by
  cases t with
  | mk a ha =>
    cases u with
    | mk b hb =>
      congr 1
      apply List.ext_getElem (by rw [ha, hb])
      intro k h1 h2
      exact h ⟨k, by rw [← ha]; exact h1⟩

@[simp] theorem Table.set_get_self {n : Nat} {α : Type} (t : Table n α) (i : Fin n) : t.set i (t.get i) = t := by
  apply Table.ext_get
  intro j
  rw [Table.get_set]
  split
  · rename_i h; rw [h]
  · rfl

@[simp] theorem mem_indexes {n : Nat} (i : Fin n) : i ∈ indexes n := by simp [indexes]

theorem indexes_nodup (n : Nat) : (indexes n).Nodup := List.nodup_finRange n

namespace Machine

/-! ### Reads after updates -/

@[simp] theorem State.lane_modLane_self (s : State) (i : LaneId) (f : Lane → Lane) :
    (s.modLane i f).lane i = f (s.lane i) := by
  simp [State.modLane, State.lane]

theorem State.lane_modLane (s : State) (i j : LaneId) (f : Lane → Lane) :
    (s.modLane i f).lane j = if j = i then f (s.lane i) else s.lane j := by
  simp [State.modLane, State.lane, Table.get_set]

@[simp] theorem State.port_modPort_self (s : State) (h : PortId) (f : Port → Port) :
    (s.modPort h f).port h = f (s.port h) := by
  simp [State.modPort, State.port]

theorem State.port_modPort (s : State) (h g : PortId) (f : Port → Port) :
    (s.modPort h f).port g = if g = h then f (s.port h) else s.port g := by
  simp [State.modPort, State.port, Table.get_set]

@[simp] theorem State.circuit_setCircuit_self (s : State) (c : SlotId) (x : Circuit) :
    (s.setCircuit c x).circuit c = some x := by
  simp [State.setCircuit, State.circuit]

theorem State.circuit_setCircuit (s : State) (c d : SlotId) (x : Circuit) :
    (s.setCircuit c x).circuit d = if d = c then some x else s.circuit d := by
  by_cases h : d = c
  · subst h; simp
  · simp [State.setCircuit, State.circuit, Table.get_set, h]

@[simp] theorem State.gen_setCircuit (s : State) (c d : SlotId) (x : Circuit) :
    ((s.setCircuit c x).slots.get d).gen = (s.slots.get d).gen := by
  simp only [State.setCircuit, Table.get_set]
  split
  · rename_i h; rw [h]
  · rfl

/-- R23: a vacated slot is VACANT with its generation advanced; every other slot is as it was. -/
theorem State.slots_vacate (s : State) (c d : SlotId) :
    (s.vacate c).slots.get d = if d = c then ⟨(s.slots.get c).gen + 1, none⟩ else s.slots.get d := by
  simp [State.vacate, State.scanDue, Table.get_set]

/-! ### What each update leaves alone -/

/-! #### modLane -/

@[simp] theorem State.modLane_side (s : State) (i : LaneId) (f : Lane → Lane) : (s.modLane i f).side = s.side := rfl
@[simp] theorem State.modLane_loading (s : State) (i : LaneId) (f : Lane → Lane) : (s.modLane i f).loading = s.loading := rfl
@[simp] theorem State.modLane_params (s : State) (i : LaneId) (f : Lane → Lane) : (s.modLane i f).params = s.params := rfl
@[simp] theorem State.modLane_pool (s : State) (i : LaneId) (f : Lane → Lane) : (s.modLane i f).pool = s.pool := rfl
@[simp] theorem State.modLane_slots (s : State) (i : LaneId) (f : Lane → Lane) : (s.modLane i f).slots = s.slots := rfl
@[simp] theorem State.modLane_queue (s : State) (i : LaneId) (f : Lane → Lane) : (s.modLane i f).queue = s.queue := rfl
@[simp] theorem State.modLane_arrivals (s : State) (i : LaneId) (f : Lane → Lane) : (s.modLane i f).arrivals = s.arrivals := rfl
@[simp] theorem State.modLane_units (s : State) (i : LaneId) (f : Lane → Lane) : (s.modLane i f).units = s.units := rfl
@[simp] theorem State.modLane_dwellQueue (s : State) (i : LaneId) (f : Lane → Lane) : (s.modLane i f).dwellQueue = s.dwellQueue := rfl
@[simp] theorem State.modLane_sweepTimer (s : State) (i : LaneId) (f : Lane → Lane) : (s.modLane i f).sweepTimer = s.sweepTimer := rfl
@[simp] theorem State.modLane_sweepCount (s : State) (i : LaneId) (f : Lane → Lane) : (s.modLane i f).sweepCount = s.sweepCount := rfl
@[simp] theorem State.modLane_configPort (s : State) (i : LaneId) (f : Lane → Lane) : (s.modLane i f).configPort = s.configPort := rfl
@[simp] theorem State.modLane_partFrame (s : State) (i : LaneId) (f : Lane → Lane) : (s.modLane i f).partFrame = s.partFrame := rfl
@[simp] theorem State.modLane_losses (s : State) (i : LaneId) (f : Lane → Lane) : (s.modLane i f).losses = s.losses := rfl
@[simp] theorem State.modLane_seeking (s : State) (i : LaneId) (f : Lane → Lane) : (s.modLane i f).seeking = s.seeking := rfl
@[simp] theorem State.modLane_trunk (s : State) (i : LaneId) (f : Lane → Lane) : (s.modLane i f).trunk = s.trunk := rfl
@[simp] theorem State.modLane_lastLoss (s : State) (i : LaneId) (f : Lane → Lane) : (s.modLane i f).lastLoss = s.lastLoss := rfl
@[simp] theorem State.modLane_sessions (s : State) (i : LaneId) (f : Lane → Lane) : (s.modLane i f).sessions = s.sessions := rfl
@[simp] theorem State.modLane_sendQueue (s : State) (i : LaneId) (f : Lane → Lane) : (s.modLane i f).sendQueue = s.sendQueue := rfl
@[simp] theorem State.modLane_outstanding (s : State) (i : LaneId) (f : Lane → Lane) : (s.modLane i f).outstanding = s.outstanding := rfl
@[simp] theorem State.modLane_nextSeq (s : State) (i : LaneId) (f : Lane → Lane) : (s.modLane i f).nextSeq = s.nextSeq := rfl
@[simp] theorem State.modLane_expectedSeq (s : State) (i : LaneId) (f : Lane → Lane) : (s.modLane i f).expectedSeq = s.expectedSeq := rfl
@[simp] theorem State.modLane_mark (s : State) (i : LaneId) (f : Lane → Lane) : (s.modLane i f).mark = s.mark := rfl
@[simp] theorem State.modLane_retryCount (s : State) (i : LaneId) (f : Lane → Lane) : (s.modLane i f).retryCount = s.retryCount := rfl
@[simp] theorem State.modLane_silenceCount (s : State) (i : LaneId) (f : Lane → Lane) : (s.modLane i f).silenceCount = s.silenceCount := rfl
@[simp] theorem State.modLane_sentSinceTick (s : State) (i : LaneId) (f : Lane → Lane) : (s.modLane i f).sentSinceTick = s.sentSinceTick := rfl
@[simp] theorem State.modLane_badFrames (s : State) (i : LaneId) (f : Lane → Lane) : (s.modLane i f).badFrames = s.badFrames := rfl
@[simp] theorem State.modLane_retransmissions (s : State) (i : LaneId) (f : Lane → Lane) : (s.modLane i f).retransmissions = s.retransmissions := rfl
@[simp] theorem State.modLane_peerHeard (s : State) (i : LaneId) (f : Lane → Lane) : (s.modLane i f).peerHeard = s.peerHeard := rfl
@[simp] theorem State.modLane_clash (s : State) (i : LaneId) (f : Lane → Lane) : (s.modLane i f).clash = s.clash := rfl
@[simp] theorem State.modLane_peerEnable (s : State) (i : LaneId) (f : Lane → Lane) : (s.modLane i f).peerEnable = s.peerEnable := rfl
@[simp] theorem State.modLane_peerFences (s : State) (i : LaneId) (f : Lane → Lane) : (s.modLane i f).peerFences = s.peerFences := rfl
@[simp] theorem State.modLane_joinMask (s : State) (i : LaneId) (f : Lane → Lane) : (s.modLane i f).joinMask = s.joinMask := rfl
@[simp] theorem State.modLane_joinSent (s : State) (i : LaneId) (f : Lane → Lane) : (s.modLane i f).joinSent = s.joinSent := rfl
@[simp] theorem State.modLane_fenceChanges (s : State) (i : LaneId) (f : Lane → Lane) : (s.modLane i f).fenceChanges = s.fenceChanges := rfl
@[simp] theorem State.modLane_controlTimer (s : State) (i : LaneId) (f : Lane → Lane) : (s.modLane i f).controlTimer = s.controlTimer := rfl
@[simp] theorem State.modLane_txFrames (s : State) (i : LaneId) (f : Lane → Lane) : (s.modLane i f).txFrames = s.txFrames := rfl
@[simp] theorem State.modLane_sending (s : State) (i : LaneId) (f : Lane → Lane) : (s.modLane i f).sending = s.sending := rfl
@[simp] theorem State.modLane_ring (s : State) (i : LaneId) (f : Lane → Lane) : (s.modLane i f).ring = s.ring := rfl
@[simp] theorem State.modLane_nextEntry (s : State) (i : LaneId) (f : Lane → Lane) : (s.modLane i f).nextEntry = s.nextEntry := rfl
@[simp] theorem State.modLane_ports (s : State) (i : LaneId) (f : Lane → Lane) : (s.modLane i f).ports = s.ports := rfl
@[simp] theorem State.modLane_scratch (s : State) (i : LaneId) (f : Lane → Lane) : (s.modLane i f).scratch = s.scratch := rfl
@[simp] theorem State.modLane_pending (s : State) (i : LaneId) (f : Lane → Lane) : (s.modLane i f).pending = s.pending := rfl

/-! #### setCircuit -/

@[simp] theorem State.setCircuit_side (s : State) (c : SlotId) (x : Circuit) : (s.setCircuit c x).side = s.side := rfl
@[simp] theorem State.setCircuit_loading (s : State) (c : SlotId) (x : Circuit) : (s.setCircuit c x).loading = s.loading := rfl
@[simp] theorem State.setCircuit_params (s : State) (c : SlotId) (x : Circuit) : (s.setCircuit c x).params = s.params := rfl
@[simp] theorem State.setCircuit_lanes (s : State) (c : SlotId) (x : Circuit) : (s.setCircuit c x).lanes = s.lanes := rfl
@[simp] theorem State.setCircuit_pool (s : State) (c : SlotId) (x : Circuit) : (s.setCircuit c x).pool = s.pool := rfl
@[simp] theorem State.setCircuit_queue (s : State) (c : SlotId) (x : Circuit) : (s.setCircuit c x).queue = s.queue := rfl
@[simp] theorem State.setCircuit_arrivals (s : State) (c : SlotId) (x : Circuit) : (s.setCircuit c x).arrivals = s.arrivals := rfl
@[simp] theorem State.setCircuit_units (s : State) (c : SlotId) (x : Circuit) : (s.setCircuit c x).units = s.units := rfl
@[simp] theorem State.setCircuit_dwellQueue (s : State) (c : SlotId) (x : Circuit) : (s.setCircuit c x).dwellQueue = s.dwellQueue := rfl
@[simp] theorem State.setCircuit_sweepTimer (s : State) (c : SlotId) (x : Circuit) : (s.setCircuit c x).sweepTimer = s.sweepTimer := rfl
@[simp] theorem State.setCircuit_sweepCount (s : State) (c : SlotId) (x : Circuit) : (s.setCircuit c x).sweepCount = s.sweepCount := rfl
@[simp] theorem State.setCircuit_configPort (s : State) (c : SlotId) (x : Circuit) : (s.setCircuit c x).configPort = s.configPort := rfl
@[simp] theorem State.setCircuit_partFrame (s : State) (c : SlotId) (x : Circuit) : (s.setCircuit c x).partFrame = s.partFrame := rfl
@[simp] theorem State.setCircuit_losses (s : State) (c : SlotId) (x : Circuit) : (s.setCircuit c x).losses = s.losses := rfl
@[simp] theorem State.setCircuit_seeking (s : State) (c : SlotId) (x : Circuit) : (s.setCircuit c x).seeking = s.seeking := rfl
@[simp] theorem State.setCircuit_trunk (s : State) (c : SlotId) (x : Circuit) : (s.setCircuit c x).trunk = s.trunk := rfl
@[simp] theorem State.setCircuit_lastLoss (s : State) (c : SlotId) (x : Circuit) : (s.setCircuit c x).lastLoss = s.lastLoss := rfl
@[simp] theorem State.setCircuit_sessions (s : State) (c : SlotId) (x : Circuit) : (s.setCircuit c x).sessions = s.sessions := rfl
@[simp] theorem State.setCircuit_sendQueue (s : State) (c : SlotId) (x : Circuit) : (s.setCircuit c x).sendQueue = s.sendQueue := rfl
@[simp] theorem State.setCircuit_outstanding (s : State) (c : SlotId) (x : Circuit) : (s.setCircuit c x).outstanding = s.outstanding := rfl
@[simp] theorem State.setCircuit_nextSeq (s : State) (c : SlotId) (x : Circuit) : (s.setCircuit c x).nextSeq = s.nextSeq := rfl
@[simp] theorem State.setCircuit_expectedSeq (s : State) (c : SlotId) (x : Circuit) : (s.setCircuit c x).expectedSeq = s.expectedSeq := rfl
@[simp] theorem State.setCircuit_mark (s : State) (c : SlotId) (x : Circuit) : (s.setCircuit c x).mark = s.mark := rfl
@[simp] theorem State.setCircuit_retryCount (s : State) (c : SlotId) (x : Circuit) : (s.setCircuit c x).retryCount = s.retryCount := rfl
@[simp] theorem State.setCircuit_silenceCount (s : State) (c : SlotId) (x : Circuit) : (s.setCircuit c x).silenceCount = s.silenceCount := rfl
@[simp] theorem State.setCircuit_sentSinceTick (s : State) (c : SlotId) (x : Circuit) : (s.setCircuit c x).sentSinceTick = s.sentSinceTick := rfl
@[simp] theorem State.setCircuit_badFrames (s : State) (c : SlotId) (x : Circuit) : (s.setCircuit c x).badFrames = s.badFrames := rfl
@[simp] theorem State.setCircuit_retransmissions (s : State) (c : SlotId) (x : Circuit) : (s.setCircuit c x).retransmissions = s.retransmissions := rfl
@[simp] theorem State.setCircuit_peerHeard (s : State) (c : SlotId) (x : Circuit) : (s.setCircuit c x).peerHeard = s.peerHeard := rfl
@[simp] theorem State.setCircuit_clash (s : State) (c : SlotId) (x : Circuit) : (s.setCircuit c x).clash = s.clash := rfl
@[simp] theorem State.setCircuit_peerEnable (s : State) (c : SlotId) (x : Circuit) : (s.setCircuit c x).peerEnable = s.peerEnable := rfl
@[simp] theorem State.setCircuit_peerFences (s : State) (c : SlotId) (x : Circuit) : (s.setCircuit c x).peerFences = s.peerFences := rfl
@[simp] theorem State.setCircuit_joinMask (s : State) (c : SlotId) (x : Circuit) : (s.setCircuit c x).joinMask = s.joinMask := rfl
@[simp] theorem State.setCircuit_joinSent (s : State) (c : SlotId) (x : Circuit) : (s.setCircuit c x).joinSent = s.joinSent := rfl
@[simp] theorem State.setCircuit_fenceChanges (s : State) (c : SlotId) (x : Circuit) : (s.setCircuit c x).fenceChanges = s.fenceChanges := rfl
@[simp] theorem State.setCircuit_controlTimer (s : State) (c : SlotId) (x : Circuit) : (s.setCircuit c x).controlTimer = s.controlTimer := rfl
@[simp] theorem State.setCircuit_txFrames (s : State) (c : SlotId) (x : Circuit) : (s.setCircuit c x).txFrames = s.txFrames := rfl
@[simp] theorem State.setCircuit_sending (s : State) (c : SlotId) (x : Circuit) : (s.setCircuit c x).sending = s.sending := rfl
@[simp] theorem State.setCircuit_ring (s : State) (c : SlotId) (x : Circuit) : (s.setCircuit c x).ring = s.ring := rfl
@[simp] theorem State.setCircuit_nextEntry (s : State) (c : SlotId) (x : Circuit) : (s.setCircuit c x).nextEntry = s.nextEntry := rfl
@[simp] theorem State.setCircuit_ports (s : State) (c : SlotId) (x : Circuit) : (s.setCircuit c x).ports = s.ports := rfl
@[simp] theorem State.setCircuit_scratch (s : State) (c : SlotId) (x : Circuit) : (s.setCircuit c x).scratch = s.scratch := rfl
@[simp] theorem State.setCircuit_pending (s : State) (c : SlotId) (x : Circuit) : (s.setCircuit c x).pending = s.pending := rfl

/-! #### modPort -/

@[simp] theorem State.modPort_side (s : State) (h : PortId) (f : Port → Port) : (s.modPort h f).side = s.side := rfl
@[simp] theorem State.modPort_loading (s : State) (h : PortId) (f : Port → Port) : (s.modPort h f).loading = s.loading := rfl
@[simp] theorem State.modPort_params (s : State) (h : PortId) (f : Port → Port) : (s.modPort h f).params = s.params := rfl
@[simp] theorem State.modPort_lanes (s : State) (h : PortId) (f : Port → Port) : (s.modPort h f).lanes = s.lanes := rfl
@[simp] theorem State.modPort_pool (s : State) (h : PortId) (f : Port → Port) : (s.modPort h f).pool = s.pool := rfl
@[simp] theorem State.modPort_slots (s : State) (h : PortId) (f : Port → Port) : (s.modPort h f).slots = s.slots := rfl
@[simp] theorem State.modPort_queue (s : State) (h : PortId) (f : Port → Port) : (s.modPort h f).queue = s.queue := rfl
@[simp] theorem State.modPort_arrivals (s : State) (h : PortId) (f : Port → Port) : (s.modPort h f).arrivals = s.arrivals := rfl
@[simp] theorem State.modPort_units (s : State) (h : PortId) (f : Port → Port) : (s.modPort h f).units = s.units := rfl
@[simp] theorem State.modPort_dwellQueue (s : State) (h : PortId) (f : Port → Port) : (s.modPort h f).dwellQueue = s.dwellQueue := rfl
@[simp] theorem State.modPort_sweepTimer (s : State) (h : PortId) (f : Port → Port) : (s.modPort h f).sweepTimer = s.sweepTimer := rfl
@[simp] theorem State.modPort_sweepCount (s : State) (h : PortId) (f : Port → Port) : (s.modPort h f).sweepCount = s.sweepCount := rfl
@[simp] theorem State.modPort_configPort (s : State) (h : PortId) (f : Port → Port) : (s.modPort h f).configPort = s.configPort := rfl
@[simp] theorem State.modPort_partFrame (s : State) (h : PortId) (f : Port → Port) : (s.modPort h f).partFrame = s.partFrame := rfl
@[simp] theorem State.modPort_losses (s : State) (h : PortId) (f : Port → Port) : (s.modPort h f).losses = s.losses := rfl
@[simp] theorem State.modPort_seeking (s : State) (h : PortId) (f : Port → Port) : (s.modPort h f).seeking = s.seeking := rfl
@[simp] theorem State.modPort_trunk (s : State) (h : PortId) (f : Port → Port) : (s.modPort h f).trunk = s.trunk := rfl
@[simp] theorem State.modPort_lastLoss (s : State) (h : PortId) (f : Port → Port) : (s.modPort h f).lastLoss = s.lastLoss := rfl
@[simp] theorem State.modPort_sessions (s : State) (h : PortId) (f : Port → Port) : (s.modPort h f).sessions = s.sessions := rfl
@[simp] theorem State.modPort_sendQueue (s : State) (h : PortId) (f : Port → Port) : (s.modPort h f).sendQueue = s.sendQueue := rfl
@[simp] theorem State.modPort_outstanding (s : State) (h : PortId) (f : Port → Port) : (s.modPort h f).outstanding = s.outstanding := rfl
@[simp] theorem State.modPort_nextSeq (s : State) (h : PortId) (f : Port → Port) : (s.modPort h f).nextSeq = s.nextSeq := rfl
@[simp] theorem State.modPort_expectedSeq (s : State) (h : PortId) (f : Port → Port) : (s.modPort h f).expectedSeq = s.expectedSeq := rfl
@[simp] theorem State.modPort_mark (s : State) (h : PortId) (f : Port → Port) : (s.modPort h f).mark = s.mark := rfl
@[simp] theorem State.modPort_retryCount (s : State) (h : PortId) (f : Port → Port) : (s.modPort h f).retryCount = s.retryCount := rfl
@[simp] theorem State.modPort_silenceCount (s : State) (h : PortId) (f : Port → Port) : (s.modPort h f).silenceCount = s.silenceCount := rfl
@[simp] theorem State.modPort_sentSinceTick (s : State) (h : PortId) (f : Port → Port) : (s.modPort h f).sentSinceTick = s.sentSinceTick := rfl
@[simp] theorem State.modPort_badFrames (s : State) (h : PortId) (f : Port → Port) : (s.modPort h f).badFrames = s.badFrames := rfl
@[simp] theorem State.modPort_retransmissions (s : State) (h : PortId) (f : Port → Port) : (s.modPort h f).retransmissions = s.retransmissions := rfl
@[simp] theorem State.modPort_peerHeard (s : State) (h : PortId) (f : Port → Port) : (s.modPort h f).peerHeard = s.peerHeard := rfl
@[simp] theorem State.modPort_clash (s : State) (h : PortId) (f : Port → Port) : (s.modPort h f).clash = s.clash := rfl
@[simp] theorem State.modPort_peerEnable (s : State) (h : PortId) (f : Port → Port) : (s.modPort h f).peerEnable = s.peerEnable := rfl
@[simp] theorem State.modPort_peerFences (s : State) (h : PortId) (f : Port → Port) : (s.modPort h f).peerFences = s.peerFences := rfl
@[simp] theorem State.modPort_joinMask (s : State) (h : PortId) (f : Port → Port) : (s.modPort h f).joinMask = s.joinMask := rfl
@[simp] theorem State.modPort_joinSent (s : State) (h : PortId) (f : Port → Port) : (s.modPort h f).joinSent = s.joinSent := rfl
@[simp] theorem State.modPort_fenceChanges (s : State) (h : PortId) (f : Port → Port) : (s.modPort h f).fenceChanges = s.fenceChanges := rfl
@[simp] theorem State.modPort_controlTimer (s : State) (h : PortId) (f : Port → Port) : (s.modPort h f).controlTimer = s.controlTimer := rfl
@[simp] theorem State.modPort_txFrames (s : State) (h : PortId) (f : Port → Port) : (s.modPort h f).txFrames = s.txFrames := rfl
@[simp] theorem State.modPort_sending (s : State) (h : PortId) (f : Port → Port) : (s.modPort h f).sending = s.sending := rfl
@[simp] theorem State.modPort_ring (s : State) (h : PortId) (f : Port → Port) : (s.modPort h f).ring = s.ring := rfl
@[simp] theorem State.modPort_nextEntry (s : State) (h : PortId) (f : Port → Port) : (s.modPort h f).nextEntry = s.nextEntry := rfl
@[simp] theorem State.modPort_scratch (s : State) (h : PortId) (f : Port → Port) : (s.modPort h f).scratch = s.scratch := rfl
@[simp] theorem State.modPort_pending (s : State) (h : PortId) (f : Port → Port) : (s.modPort h f).pending = s.pending := rfl

/-! #### scanDue -/

@[simp] theorem State.scanDue_side (s : State) : (s.scanDue).side = s.side := rfl
@[simp] theorem State.scanDue_loading (s : State) : (s.scanDue).loading = s.loading := rfl
@[simp] theorem State.scanDue_params (s : State) : (s.scanDue).params = s.params := rfl
@[simp] theorem State.scanDue_lanes (s : State) : (s.scanDue).lanes = s.lanes := rfl
@[simp] theorem State.scanDue_pool (s : State) : (s.scanDue).pool = s.pool := rfl
@[simp] theorem State.scanDue_slots (s : State) : (s.scanDue).slots = s.slots := rfl
@[simp] theorem State.scanDue_queue (s : State) : (s.scanDue).queue = s.queue := rfl
@[simp] theorem State.scanDue_arrivals (s : State) : (s.scanDue).arrivals = s.arrivals := rfl
@[simp] theorem State.scanDue_units (s : State) : (s.scanDue).units = s.units := rfl
@[simp] theorem State.scanDue_dwellQueue (s : State) : (s.scanDue).dwellQueue = s.dwellQueue := rfl
@[simp] theorem State.scanDue_sweepTimer (s : State) : (s.scanDue).sweepTimer = s.sweepTimer := rfl
@[simp] theorem State.scanDue_sweepCount (s : State) : (s.scanDue).sweepCount = s.sweepCount := rfl
@[simp] theorem State.scanDue_configPort (s : State) : (s.scanDue).configPort = s.configPort := rfl
@[simp] theorem State.scanDue_partFrame (s : State) : (s.scanDue).partFrame = s.partFrame := rfl
@[simp] theorem State.scanDue_losses (s : State) : (s.scanDue).losses = s.losses := rfl
@[simp] theorem State.scanDue_seeking (s : State) : (s.scanDue).seeking = s.seeking := rfl
@[simp] theorem State.scanDue_trunk (s : State) : (s.scanDue).trunk = s.trunk := rfl
@[simp] theorem State.scanDue_lastLoss (s : State) : (s.scanDue).lastLoss = s.lastLoss := rfl
@[simp] theorem State.scanDue_sessions (s : State) : (s.scanDue).sessions = s.sessions := rfl
@[simp] theorem State.scanDue_sendQueue (s : State) : (s.scanDue).sendQueue = s.sendQueue := rfl
@[simp] theorem State.scanDue_outstanding (s : State) : (s.scanDue).outstanding = s.outstanding := rfl
@[simp] theorem State.scanDue_nextSeq (s : State) : (s.scanDue).nextSeq = s.nextSeq := rfl
@[simp] theorem State.scanDue_expectedSeq (s : State) : (s.scanDue).expectedSeq = s.expectedSeq := rfl
@[simp] theorem State.scanDue_mark (s : State) : (s.scanDue).mark = s.mark := rfl
@[simp] theorem State.scanDue_retryCount (s : State) : (s.scanDue).retryCount = s.retryCount := rfl
@[simp] theorem State.scanDue_silenceCount (s : State) : (s.scanDue).silenceCount = s.silenceCount := rfl
@[simp] theorem State.scanDue_sentSinceTick (s : State) : (s.scanDue).sentSinceTick = s.sentSinceTick := rfl
@[simp] theorem State.scanDue_badFrames (s : State) : (s.scanDue).badFrames = s.badFrames := rfl
@[simp] theorem State.scanDue_retransmissions (s : State) : (s.scanDue).retransmissions = s.retransmissions := rfl
@[simp] theorem State.scanDue_peerHeard (s : State) : (s.scanDue).peerHeard = s.peerHeard := rfl
@[simp] theorem State.scanDue_clash (s : State) : (s.scanDue).clash = s.clash := rfl
@[simp] theorem State.scanDue_peerEnable (s : State) : (s.scanDue).peerEnable = s.peerEnable := rfl
@[simp] theorem State.scanDue_peerFences (s : State) : (s.scanDue).peerFences = s.peerFences := rfl
@[simp] theorem State.scanDue_joinMask (s : State) : (s.scanDue).joinMask = s.joinMask := rfl
@[simp] theorem State.scanDue_joinSent (s : State) : (s.scanDue).joinSent = s.joinSent := rfl
@[simp] theorem State.scanDue_fenceChanges (s : State) : (s.scanDue).fenceChanges = s.fenceChanges := rfl
@[simp] theorem State.scanDue_controlTimer (s : State) : (s.scanDue).controlTimer = s.controlTimer := rfl
@[simp] theorem State.scanDue_txFrames (s : State) : (s.scanDue).txFrames = s.txFrames := rfl
@[simp] theorem State.scanDue_sending (s : State) : (s.scanDue).sending = s.sending := rfl
@[simp] theorem State.scanDue_ring (s : State) : (s.scanDue).ring = s.ring := rfl
@[simp] theorem State.scanDue_nextEntry (s : State) : (s.scanDue).nextEntry = s.nextEntry := rfl
@[simp] theorem State.scanDue_ports (s : State) : (s.scanDue).ports = s.ports := rfl
@[simp] theorem State.scanDue_pending (s : State) : (s.scanDue).pending = s.pending := rfl

/-! #### received -/

@[simp] theorem State.received_side (s : State) : (s.received).side = s.side := rfl
@[simp] theorem State.received_loading (s : State) : (s.received).loading = s.loading := rfl
@[simp] theorem State.received_params (s : State) : (s.received).params = s.params := rfl
@[simp] theorem State.received_lanes (s : State) : (s.received).lanes = s.lanes := rfl
@[simp] theorem State.received_pool (s : State) : (s.received).pool = s.pool := rfl
@[simp] theorem State.received_slots (s : State) : (s.received).slots = s.slots := rfl
@[simp] theorem State.received_queue (s : State) : (s.received).queue = s.queue := rfl
@[simp] theorem State.received_arrivals (s : State) : (s.received).arrivals = s.arrivals := rfl
@[simp] theorem State.received_units (s : State) : (s.received).units = s.units := rfl
@[simp] theorem State.received_dwellQueue (s : State) : (s.received).dwellQueue = s.dwellQueue := rfl
@[simp] theorem State.received_sweepTimer (s : State) : (s.received).sweepTimer = s.sweepTimer := rfl
@[simp] theorem State.received_sweepCount (s : State) : (s.received).sweepCount = s.sweepCount := rfl
@[simp] theorem State.received_configPort (s : State) : (s.received).configPort = s.configPort := rfl
@[simp] theorem State.received_partFrame (s : State) : (s.received).partFrame = s.partFrame := rfl
@[simp] theorem State.received_losses (s : State) : (s.received).losses = s.losses := rfl
@[simp] theorem State.received_seeking (s : State) : (s.received).seeking = s.seeking := rfl
@[simp] theorem State.received_trunk (s : State) : (s.received).trunk = s.trunk := rfl
@[simp] theorem State.received_lastLoss (s : State) : (s.received).lastLoss = s.lastLoss := rfl
@[simp] theorem State.received_sessions (s : State) : (s.received).sessions = s.sessions := rfl
@[simp] theorem State.received_sendQueue (s : State) : (s.received).sendQueue = s.sendQueue := rfl
@[simp] theorem State.received_outstanding (s : State) : (s.received).outstanding = s.outstanding := rfl
@[simp] theorem State.received_nextSeq (s : State) : (s.received).nextSeq = s.nextSeq := rfl
@[simp] theorem State.received_expectedSeq (s : State) : (s.received).expectedSeq = s.expectedSeq := rfl
@[simp] theorem State.received_mark (s : State) : (s.received).mark = s.mark := rfl
@[simp] theorem State.received_retryCount (s : State) : (s.received).retryCount = s.retryCount := rfl
@[simp] theorem State.received_silenceCount (s : State) : (s.received).silenceCount = s.silenceCount := rfl
@[simp] theorem State.received_sentSinceTick (s : State) : (s.received).sentSinceTick = s.sentSinceTick := rfl
@[simp] theorem State.received_badFrames (s : State) : (s.received).badFrames = s.badFrames := rfl
@[simp] theorem State.received_retransmissions (s : State) : (s.received).retransmissions = s.retransmissions := rfl
@[simp] theorem State.received_peerHeard (s : State) : (s.received).peerHeard = s.peerHeard := rfl
@[simp] theorem State.received_clash (s : State) : (s.received).clash = s.clash := rfl
@[simp] theorem State.received_peerEnable (s : State) : (s.received).peerEnable = s.peerEnable := rfl
@[simp] theorem State.received_peerFences (s : State) : (s.received).peerFences = s.peerFences := rfl
@[simp] theorem State.received_joinMask (s : State) : (s.received).joinMask = s.joinMask := rfl
@[simp] theorem State.received_joinSent (s : State) : (s.received).joinSent = s.joinSent := rfl
@[simp] theorem State.received_fenceChanges (s : State) : (s.received).fenceChanges = s.fenceChanges := rfl
@[simp] theorem State.received_controlTimer (s : State) : (s.received).controlTimer = s.controlTimer := rfl
@[simp] theorem State.received_txFrames (s : State) : (s.received).txFrames = s.txFrames := rfl
@[simp] theorem State.received_sending (s : State) : (s.received).sending = s.sending := rfl
@[simp] theorem State.received_ring (s : State) : (s.received).ring = s.ring := rfl
@[simp] theorem State.received_nextEntry (s : State) : (s.received).nextEntry = s.nextEntry := rfl
@[simp] theorem State.received_ports (s : State) : (s.received).ports = s.ports := rfl
@[simp] theorem State.received_pending (s : State) : (s.received).pending = s.pending := rfl

/-! #### poolGrown -/

@[simp] theorem State.poolGrown_side (s : State) : (s.poolGrown).side = s.side := rfl
@[simp] theorem State.poolGrown_loading (s : State) : (s.poolGrown).loading = s.loading := rfl
@[simp] theorem State.poolGrown_params (s : State) : (s.poolGrown).params = s.params := rfl
@[simp] theorem State.poolGrown_lanes (s : State) : (s.poolGrown).lanes = s.lanes := rfl
@[simp] theorem State.poolGrown_pool (s : State) : (s.poolGrown).pool = s.pool := rfl
@[simp] theorem State.poolGrown_slots (s : State) : (s.poolGrown).slots = s.slots := rfl
@[simp] theorem State.poolGrown_queue (s : State) : (s.poolGrown).queue = s.queue := rfl
@[simp] theorem State.poolGrown_arrivals (s : State) : (s.poolGrown).arrivals = s.arrivals := rfl
@[simp] theorem State.poolGrown_units (s : State) : (s.poolGrown).units = s.units := rfl
@[simp] theorem State.poolGrown_dwellQueue (s : State) : (s.poolGrown).dwellQueue = s.dwellQueue := rfl
@[simp] theorem State.poolGrown_sweepTimer (s : State) : (s.poolGrown).sweepTimer = s.sweepTimer := rfl
@[simp] theorem State.poolGrown_sweepCount (s : State) : (s.poolGrown).sweepCount = s.sweepCount := rfl
@[simp] theorem State.poolGrown_configPort (s : State) : (s.poolGrown).configPort = s.configPort := rfl
@[simp] theorem State.poolGrown_partFrame (s : State) : (s.poolGrown).partFrame = s.partFrame := rfl
@[simp] theorem State.poolGrown_losses (s : State) : (s.poolGrown).losses = s.losses := rfl
@[simp] theorem State.poolGrown_seeking (s : State) : (s.poolGrown).seeking = s.seeking := rfl
@[simp] theorem State.poolGrown_trunk (s : State) : (s.poolGrown).trunk = s.trunk := rfl
@[simp] theorem State.poolGrown_lastLoss (s : State) : (s.poolGrown).lastLoss = s.lastLoss := rfl
@[simp] theorem State.poolGrown_sessions (s : State) : (s.poolGrown).sessions = s.sessions := rfl
@[simp] theorem State.poolGrown_sendQueue (s : State) : (s.poolGrown).sendQueue = s.sendQueue := rfl
@[simp] theorem State.poolGrown_outstanding (s : State) : (s.poolGrown).outstanding = s.outstanding := rfl
@[simp] theorem State.poolGrown_nextSeq (s : State) : (s.poolGrown).nextSeq = s.nextSeq := rfl
@[simp] theorem State.poolGrown_expectedSeq (s : State) : (s.poolGrown).expectedSeq = s.expectedSeq := rfl
@[simp] theorem State.poolGrown_mark (s : State) : (s.poolGrown).mark = s.mark := rfl
@[simp] theorem State.poolGrown_retryCount (s : State) : (s.poolGrown).retryCount = s.retryCount := rfl
@[simp] theorem State.poolGrown_silenceCount (s : State) : (s.poolGrown).silenceCount = s.silenceCount := rfl
@[simp] theorem State.poolGrown_sentSinceTick (s : State) : (s.poolGrown).sentSinceTick = s.sentSinceTick := rfl
@[simp] theorem State.poolGrown_badFrames (s : State) : (s.poolGrown).badFrames = s.badFrames := rfl
@[simp] theorem State.poolGrown_retransmissions (s : State) : (s.poolGrown).retransmissions = s.retransmissions := rfl
@[simp] theorem State.poolGrown_peerHeard (s : State) : (s.poolGrown).peerHeard = s.peerHeard := rfl
@[simp] theorem State.poolGrown_clash (s : State) : (s.poolGrown).clash = s.clash := rfl
@[simp] theorem State.poolGrown_peerEnable (s : State) : (s.poolGrown).peerEnable = s.peerEnable := rfl
@[simp] theorem State.poolGrown_peerFences (s : State) : (s.poolGrown).peerFences = s.peerFences := rfl
@[simp] theorem State.poolGrown_joinMask (s : State) : (s.poolGrown).joinMask = s.joinMask := rfl
@[simp] theorem State.poolGrown_joinSent (s : State) : (s.poolGrown).joinSent = s.joinSent := rfl
@[simp] theorem State.poolGrown_fenceChanges (s : State) : (s.poolGrown).fenceChanges = s.fenceChanges := rfl
@[simp] theorem State.poolGrown_controlTimer (s : State) : (s.poolGrown).controlTimer = s.controlTimer := rfl
@[simp] theorem State.poolGrown_txFrames (s : State) : (s.poolGrown).txFrames = s.txFrames := rfl
@[simp] theorem State.poolGrown_sending (s : State) : (s.poolGrown).sending = s.sending := rfl
@[simp] theorem State.poolGrown_ring (s : State) : (s.poolGrown).ring = s.ring := rfl
@[simp] theorem State.poolGrown_nextEntry (s : State) : (s.poolGrown).nextEntry = s.nextEntry := rfl
@[simp] theorem State.poolGrown_ports (s : State) : (s.poolGrown).ports = s.ports := rfl
@[simp] theorem State.poolGrown_pending (s : State) : (s.poolGrown).pending = s.pending := rfl

/-! #### grantDue -/

@[simp] theorem State.grantDue_side (s : State) : (s.grantDue).side = s.side := rfl
@[simp] theorem State.grantDue_loading (s : State) : (s.grantDue).loading = s.loading := rfl
@[simp] theorem State.grantDue_params (s : State) : (s.grantDue).params = s.params := rfl
@[simp] theorem State.grantDue_lanes (s : State) : (s.grantDue).lanes = s.lanes := rfl
@[simp] theorem State.grantDue_pool (s : State) : (s.grantDue).pool = s.pool := rfl
@[simp] theorem State.grantDue_slots (s : State) : (s.grantDue).slots = s.slots := rfl
@[simp] theorem State.grantDue_queue (s : State) : (s.grantDue).queue = s.queue := rfl
@[simp] theorem State.grantDue_arrivals (s : State) : (s.grantDue).arrivals = s.arrivals := rfl
@[simp] theorem State.grantDue_units (s : State) : (s.grantDue).units = s.units := rfl
@[simp] theorem State.grantDue_dwellQueue (s : State) : (s.grantDue).dwellQueue = s.dwellQueue := rfl
@[simp] theorem State.grantDue_sweepTimer (s : State) : (s.grantDue).sweepTimer = s.sweepTimer := rfl
@[simp] theorem State.grantDue_sweepCount (s : State) : (s.grantDue).sweepCount = s.sweepCount := rfl
@[simp] theorem State.grantDue_configPort (s : State) : (s.grantDue).configPort = s.configPort := rfl
@[simp] theorem State.grantDue_partFrame (s : State) : (s.grantDue).partFrame = s.partFrame := rfl
@[simp] theorem State.grantDue_losses (s : State) : (s.grantDue).losses = s.losses := rfl
@[simp] theorem State.grantDue_seeking (s : State) : (s.grantDue).seeking = s.seeking := rfl
@[simp] theorem State.grantDue_trunk (s : State) : (s.grantDue).trunk = s.trunk := rfl
@[simp] theorem State.grantDue_lastLoss (s : State) : (s.grantDue).lastLoss = s.lastLoss := rfl
@[simp] theorem State.grantDue_sessions (s : State) : (s.grantDue).sessions = s.sessions := rfl
@[simp] theorem State.grantDue_sendQueue (s : State) : (s.grantDue).sendQueue = s.sendQueue := rfl
@[simp] theorem State.grantDue_outstanding (s : State) : (s.grantDue).outstanding = s.outstanding := rfl
@[simp] theorem State.grantDue_nextSeq (s : State) : (s.grantDue).nextSeq = s.nextSeq := rfl
@[simp] theorem State.grantDue_expectedSeq (s : State) : (s.grantDue).expectedSeq = s.expectedSeq := rfl
@[simp] theorem State.grantDue_mark (s : State) : (s.grantDue).mark = s.mark := rfl
@[simp] theorem State.grantDue_retryCount (s : State) : (s.grantDue).retryCount = s.retryCount := rfl
@[simp] theorem State.grantDue_silenceCount (s : State) : (s.grantDue).silenceCount = s.silenceCount := rfl
@[simp] theorem State.grantDue_sentSinceTick (s : State) : (s.grantDue).sentSinceTick = s.sentSinceTick := rfl
@[simp] theorem State.grantDue_badFrames (s : State) : (s.grantDue).badFrames = s.badFrames := rfl
@[simp] theorem State.grantDue_retransmissions (s : State) : (s.grantDue).retransmissions = s.retransmissions := rfl
@[simp] theorem State.grantDue_peerHeard (s : State) : (s.grantDue).peerHeard = s.peerHeard := rfl
@[simp] theorem State.grantDue_clash (s : State) : (s.grantDue).clash = s.clash := rfl
@[simp] theorem State.grantDue_peerEnable (s : State) : (s.grantDue).peerEnable = s.peerEnable := rfl
@[simp] theorem State.grantDue_peerFences (s : State) : (s.grantDue).peerFences = s.peerFences := rfl
@[simp] theorem State.grantDue_joinMask (s : State) : (s.grantDue).joinMask = s.joinMask := rfl
@[simp] theorem State.grantDue_joinSent (s : State) : (s.grantDue).joinSent = s.joinSent := rfl
@[simp] theorem State.grantDue_fenceChanges (s : State) : (s.grantDue).fenceChanges = s.fenceChanges := rfl
@[simp] theorem State.grantDue_controlTimer (s : State) : (s.grantDue).controlTimer = s.controlTimer := rfl
@[simp] theorem State.grantDue_txFrames (s : State) : (s.grantDue).txFrames = s.txFrames := rfl
@[simp] theorem State.grantDue_sending (s : State) : (s.grantDue).sending = s.sending := rfl
@[simp] theorem State.grantDue_ring (s : State) : (s.grantDue).ring = s.ring := rfl
@[simp] theorem State.grantDue_nextEntry (s : State) : (s.grantDue).nextEntry = s.nextEntry := rfl
@[simp] theorem State.grantDue_ports (s : State) : (s.grantDue).ports = s.ports := rfl
@[simp] theorem State.grantDue_pending (s : State) : (s.grantDue).pending = s.pending := rfl

/-! #### log -/

@[simp] theorem State.log_side (s : State) (k : LogKind) (l : Option LaneId) (t : Option Tag) (d : Half) : (s.log k l t d).side = s.side := rfl
@[simp] theorem State.log_loading (s : State) (k : LogKind) (l : Option LaneId) (t : Option Tag) (d : Half) : (s.log k l t d).loading = s.loading := rfl
@[simp] theorem State.log_params (s : State) (k : LogKind) (l : Option LaneId) (t : Option Tag) (d : Half) : (s.log k l t d).params = s.params := rfl
@[simp] theorem State.log_lanes (s : State) (k : LogKind) (l : Option LaneId) (t : Option Tag) (d : Half) : (s.log k l t d).lanes = s.lanes := rfl
@[simp] theorem State.log_pool (s : State) (k : LogKind) (l : Option LaneId) (t : Option Tag) (d : Half) : (s.log k l t d).pool = s.pool := rfl
@[simp] theorem State.log_slots (s : State) (k : LogKind) (l : Option LaneId) (t : Option Tag) (d : Half) : (s.log k l t d).slots = s.slots := rfl
@[simp] theorem State.log_queue (s : State) (k : LogKind) (l : Option LaneId) (t : Option Tag) (d : Half) : (s.log k l t d).queue = s.queue := rfl
@[simp] theorem State.log_arrivals (s : State) (k : LogKind) (l : Option LaneId) (t : Option Tag) (d : Half) : (s.log k l t d).arrivals = s.arrivals := rfl
@[simp] theorem State.log_units (s : State) (k : LogKind) (l : Option LaneId) (t : Option Tag) (d : Half) : (s.log k l t d).units = s.units := rfl
@[simp] theorem State.log_dwellQueue (s : State) (k : LogKind) (l : Option LaneId) (t : Option Tag) (d : Half) : (s.log k l t d).dwellQueue = s.dwellQueue := rfl
@[simp] theorem State.log_sweepTimer (s : State) (k : LogKind) (l : Option LaneId) (t : Option Tag) (d : Half) : (s.log k l t d).sweepTimer = s.sweepTimer := rfl
@[simp] theorem State.log_sweepCount (s : State) (k : LogKind) (l : Option LaneId) (t : Option Tag) (d : Half) : (s.log k l t d).sweepCount = s.sweepCount := rfl
@[simp] theorem State.log_configPort (s : State) (k : LogKind) (l : Option LaneId) (t : Option Tag) (d : Half) : (s.log k l t d).configPort = s.configPort := rfl
@[simp] theorem State.log_partFrame (s : State) (k : LogKind) (l : Option LaneId) (t : Option Tag) (d : Half) : (s.log k l t d).partFrame = s.partFrame := rfl
@[simp] theorem State.log_losses (s : State) (k : LogKind) (l : Option LaneId) (t : Option Tag) (d : Half) : (s.log k l t d).losses = s.losses := rfl
@[simp] theorem State.log_seeking (s : State) (k : LogKind) (l : Option LaneId) (t : Option Tag) (d : Half) : (s.log k l t d).seeking = s.seeking := rfl
@[simp] theorem State.log_trunk (s : State) (k : LogKind) (l : Option LaneId) (t : Option Tag) (d : Half) : (s.log k l t d).trunk = s.trunk := rfl
@[simp] theorem State.log_lastLoss (s : State) (k : LogKind) (l : Option LaneId) (t : Option Tag) (d : Half) : (s.log k l t d).lastLoss = s.lastLoss := rfl
@[simp] theorem State.log_sessions (s : State) (k : LogKind) (l : Option LaneId) (t : Option Tag) (d : Half) : (s.log k l t d).sessions = s.sessions := rfl
@[simp] theorem State.log_sendQueue (s : State) (k : LogKind) (l : Option LaneId) (t : Option Tag) (d : Half) : (s.log k l t d).sendQueue = s.sendQueue := rfl
@[simp] theorem State.log_outstanding (s : State) (k : LogKind) (l : Option LaneId) (t : Option Tag) (d : Half) : (s.log k l t d).outstanding = s.outstanding := rfl
@[simp] theorem State.log_nextSeq (s : State) (k : LogKind) (l : Option LaneId) (t : Option Tag) (d : Half) : (s.log k l t d).nextSeq = s.nextSeq := rfl
@[simp] theorem State.log_expectedSeq (s : State) (k : LogKind) (l : Option LaneId) (t : Option Tag) (d : Half) : (s.log k l t d).expectedSeq = s.expectedSeq := rfl
@[simp] theorem State.log_mark (s : State) (k : LogKind) (l : Option LaneId) (t : Option Tag) (d : Half) : (s.log k l t d).mark = s.mark := rfl
@[simp] theorem State.log_retryCount (s : State) (k : LogKind) (l : Option LaneId) (t : Option Tag) (d : Half) : (s.log k l t d).retryCount = s.retryCount := rfl
@[simp] theorem State.log_silenceCount (s : State) (k : LogKind) (l : Option LaneId) (t : Option Tag) (d : Half) : (s.log k l t d).silenceCount = s.silenceCount := rfl
@[simp] theorem State.log_sentSinceTick (s : State) (k : LogKind) (l : Option LaneId) (t : Option Tag) (d : Half) : (s.log k l t d).sentSinceTick = s.sentSinceTick := rfl
@[simp] theorem State.log_badFrames (s : State) (k : LogKind) (l : Option LaneId) (t : Option Tag) (d : Half) : (s.log k l t d).badFrames = s.badFrames := rfl
@[simp] theorem State.log_retransmissions (s : State) (k : LogKind) (l : Option LaneId) (t : Option Tag) (d : Half) : (s.log k l t d).retransmissions = s.retransmissions := rfl
@[simp] theorem State.log_peerHeard (s : State) (k : LogKind) (l : Option LaneId) (t : Option Tag) (d : Half) : (s.log k l t d).peerHeard = s.peerHeard := rfl
@[simp] theorem State.log_clash (s : State) (k : LogKind) (l : Option LaneId) (t : Option Tag) (d : Half) : (s.log k l t d).clash = s.clash := rfl
@[simp] theorem State.log_peerEnable (s : State) (k : LogKind) (l : Option LaneId) (t : Option Tag) (d : Half) : (s.log k l t d).peerEnable = s.peerEnable := rfl
@[simp] theorem State.log_peerFences (s : State) (k : LogKind) (l : Option LaneId) (t : Option Tag) (d : Half) : (s.log k l t d).peerFences = s.peerFences := rfl
@[simp] theorem State.log_joinMask (s : State) (k : LogKind) (l : Option LaneId) (t : Option Tag) (d : Half) : (s.log k l t d).joinMask = s.joinMask := rfl
@[simp] theorem State.log_joinSent (s : State) (k : LogKind) (l : Option LaneId) (t : Option Tag) (d : Half) : (s.log k l t d).joinSent = s.joinSent := rfl
@[simp] theorem State.log_fenceChanges (s : State) (k : LogKind) (l : Option LaneId) (t : Option Tag) (d : Half) : (s.log k l t d).fenceChanges = s.fenceChanges := rfl
@[simp] theorem State.log_controlTimer (s : State) (k : LogKind) (l : Option LaneId) (t : Option Tag) (d : Half) : (s.log k l t d).controlTimer = s.controlTimer := rfl
@[simp] theorem State.log_txFrames (s : State) (k : LogKind) (l : Option LaneId) (t : Option Tag) (d : Half) : (s.log k l t d).txFrames = s.txFrames := rfl
@[simp] theorem State.log_sending (s : State) (k : LogKind) (l : Option LaneId) (t : Option Tag) (d : Half) : (s.log k l t d).sending = s.sending := rfl
@[simp] theorem State.log_ports (s : State) (k : LogKind) (l : Option LaneId) (t : Option Tag) (d : Half) : (s.log k l t d).ports = s.ports := rfl
@[simp] theorem State.log_scratch (s : State) (k : LogKind) (l : Option LaneId) (t : Option Tag) (d : Half) : (s.log k l t d).scratch = s.scratch := rfl
@[simp] theorem State.log_pending (s : State) (k : LogKind) (l : Option LaneId) (t : Option Tag) (d : Half) : (s.log k l t d).pending = s.pending := rfl

/-! #### reply -/

@[simp] theorem State.reply_side (s : State) (h : PortId) (st : Status) (rs : List Byte) : (s.reply h st rs).side = s.side := rfl
@[simp] theorem State.reply_loading (s : State) (h : PortId) (st : Status) (rs : List Byte) : (s.reply h st rs).loading = s.loading := rfl
@[simp] theorem State.reply_params (s : State) (h : PortId) (st : Status) (rs : List Byte) : (s.reply h st rs).params = s.params := rfl
@[simp] theorem State.reply_lanes (s : State) (h : PortId) (st : Status) (rs : List Byte) : (s.reply h st rs).lanes = s.lanes := rfl
@[simp] theorem State.reply_pool (s : State) (h : PortId) (st : Status) (rs : List Byte) : (s.reply h st rs).pool = s.pool := rfl
@[simp] theorem State.reply_slots (s : State) (h : PortId) (st : Status) (rs : List Byte) : (s.reply h st rs).slots = s.slots := rfl
@[simp] theorem State.reply_queue (s : State) (h : PortId) (st : Status) (rs : List Byte) : (s.reply h st rs).queue = s.queue := rfl
@[simp] theorem State.reply_arrivals (s : State) (h : PortId) (st : Status) (rs : List Byte) : (s.reply h st rs).arrivals = s.arrivals := rfl
@[simp] theorem State.reply_units (s : State) (h : PortId) (st : Status) (rs : List Byte) : (s.reply h st rs).units = s.units := rfl
@[simp] theorem State.reply_dwellQueue (s : State) (h : PortId) (st : Status) (rs : List Byte) : (s.reply h st rs).dwellQueue = s.dwellQueue := rfl
@[simp] theorem State.reply_sweepTimer (s : State) (h : PortId) (st : Status) (rs : List Byte) : (s.reply h st rs).sweepTimer = s.sweepTimer := rfl
@[simp] theorem State.reply_sweepCount (s : State) (h : PortId) (st : Status) (rs : List Byte) : (s.reply h st rs).sweepCount = s.sweepCount := rfl
@[simp] theorem State.reply_configPort (s : State) (h : PortId) (st : Status) (rs : List Byte) : (s.reply h st rs).configPort = s.configPort := rfl
@[simp] theorem State.reply_partFrame (s : State) (h : PortId) (st : Status) (rs : List Byte) : (s.reply h st rs).partFrame = s.partFrame := rfl
@[simp] theorem State.reply_losses (s : State) (h : PortId) (st : Status) (rs : List Byte) : (s.reply h st rs).losses = s.losses := rfl
@[simp] theorem State.reply_seeking (s : State) (h : PortId) (st : Status) (rs : List Byte) : (s.reply h st rs).seeking = s.seeking := rfl
@[simp] theorem State.reply_trunk (s : State) (h : PortId) (st : Status) (rs : List Byte) : (s.reply h st rs).trunk = s.trunk := rfl
@[simp] theorem State.reply_lastLoss (s : State) (h : PortId) (st : Status) (rs : List Byte) : (s.reply h st rs).lastLoss = s.lastLoss := rfl
@[simp] theorem State.reply_sessions (s : State) (h : PortId) (st : Status) (rs : List Byte) : (s.reply h st rs).sessions = s.sessions := rfl
@[simp] theorem State.reply_sendQueue (s : State) (h : PortId) (st : Status) (rs : List Byte) : (s.reply h st rs).sendQueue = s.sendQueue := rfl
@[simp] theorem State.reply_outstanding (s : State) (h : PortId) (st : Status) (rs : List Byte) : (s.reply h st rs).outstanding = s.outstanding := rfl
@[simp] theorem State.reply_nextSeq (s : State) (h : PortId) (st : Status) (rs : List Byte) : (s.reply h st rs).nextSeq = s.nextSeq := rfl
@[simp] theorem State.reply_expectedSeq (s : State) (h : PortId) (st : Status) (rs : List Byte) : (s.reply h st rs).expectedSeq = s.expectedSeq := rfl
@[simp] theorem State.reply_mark (s : State) (h : PortId) (st : Status) (rs : List Byte) : (s.reply h st rs).mark = s.mark := rfl
@[simp] theorem State.reply_retryCount (s : State) (h : PortId) (st : Status) (rs : List Byte) : (s.reply h st rs).retryCount = s.retryCount := rfl
@[simp] theorem State.reply_silenceCount (s : State) (h : PortId) (st : Status) (rs : List Byte) : (s.reply h st rs).silenceCount = s.silenceCount := rfl
@[simp] theorem State.reply_sentSinceTick (s : State) (h : PortId) (st : Status) (rs : List Byte) : (s.reply h st rs).sentSinceTick = s.sentSinceTick := rfl
@[simp] theorem State.reply_badFrames (s : State) (h : PortId) (st : Status) (rs : List Byte) : (s.reply h st rs).badFrames = s.badFrames := rfl
@[simp] theorem State.reply_retransmissions (s : State) (h : PortId) (st : Status) (rs : List Byte) : (s.reply h st rs).retransmissions = s.retransmissions := rfl
@[simp] theorem State.reply_peerHeard (s : State) (h : PortId) (st : Status) (rs : List Byte) : (s.reply h st rs).peerHeard = s.peerHeard := rfl
@[simp] theorem State.reply_clash (s : State) (h : PortId) (st : Status) (rs : List Byte) : (s.reply h st rs).clash = s.clash := rfl
@[simp] theorem State.reply_peerEnable (s : State) (h : PortId) (st : Status) (rs : List Byte) : (s.reply h st rs).peerEnable = s.peerEnable := rfl
@[simp] theorem State.reply_peerFences (s : State) (h : PortId) (st : Status) (rs : List Byte) : (s.reply h st rs).peerFences = s.peerFences := rfl
@[simp] theorem State.reply_joinMask (s : State) (h : PortId) (st : Status) (rs : List Byte) : (s.reply h st rs).joinMask = s.joinMask := rfl
@[simp] theorem State.reply_joinSent (s : State) (h : PortId) (st : Status) (rs : List Byte) : (s.reply h st rs).joinSent = s.joinSent := rfl
@[simp] theorem State.reply_fenceChanges (s : State) (h : PortId) (st : Status) (rs : List Byte) : (s.reply h st rs).fenceChanges = s.fenceChanges := rfl
@[simp] theorem State.reply_controlTimer (s : State) (h : PortId) (st : Status) (rs : List Byte) : (s.reply h st rs).controlTimer = s.controlTimer := rfl
@[simp] theorem State.reply_txFrames (s : State) (h : PortId) (st : Status) (rs : List Byte) : (s.reply h st rs).txFrames = s.txFrames := rfl
@[simp] theorem State.reply_sending (s : State) (h : PortId) (st : Status) (rs : List Byte) : (s.reply h st rs).sending = s.sending := rfl
@[simp] theorem State.reply_ring (s : State) (h : PortId) (st : Status) (rs : List Byte) : (s.reply h st rs).ring = s.ring := rfl
@[simp] theorem State.reply_nextEntry (s : State) (h : PortId) (st : Status) (rs : List Byte) : (s.reply h st rs).nextEntry = s.nextEntry := rfl
@[simp] theorem State.reply_scratch (s : State) (h : PortId) (st : Status) (rs : List Byte) : (s.reply h st rs).scratch = s.scratch := rfl
@[simp] theorem State.reply_pending (s : State) (h : PortId) (st : Status) (rs : List Byte) : (s.reply h st rs).pending = s.pending := rfl

/-! #### hand -/

@[simp] theorem State.hand_side (s : State) (q : Seq) (b : Body) : (s.hand q b).side = s.side := rfl
@[simp] theorem State.hand_loading (s : State) (q : Seq) (b : Body) : (s.hand q b).loading = s.loading := rfl
@[simp] theorem State.hand_params (s : State) (q : Seq) (b : Body) : (s.hand q b).params = s.params := rfl
@[simp] theorem State.hand_lanes (s : State) (q : Seq) (b : Body) : (s.hand q b).lanes = s.lanes := rfl
@[simp] theorem State.hand_pool (s : State) (q : Seq) (b : Body) : (s.hand q b).pool = s.pool := rfl
@[simp] theorem State.hand_slots (s : State) (q : Seq) (b : Body) : (s.hand q b).slots = s.slots := rfl
@[simp] theorem State.hand_queue (s : State) (q : Seq) (b : Body) : (s.hand q b).queue = s.queue := rfl
@[simp] theorem State.hand_arrivals (s : State) (q : Seq) (b : Body) : (s.hand q b).arrivals = s.arrivals := rfl
@[simp] theorem State.hand_units (s : State) (q : Seq) (b : Body) : (s.hand q b).units = s.units := rfl
@[simp] theorem State.hand_dwellQueue (s : State) (q : Seq) (b : Body) : (s.hand q b).dwellQueue = s.dwellQueue := rfl
@[simp] theorem State.hand_sweepTimer (s : State) (q : Seq) (b : Body) : (s.hand q b).sweepTimer = s.sweepTimer := rfl
@[simp] theorem State.hand_sweepCount (s : State) (q : Seq) (b : Body) : (s.hand q b).sweepCount = s.sweepCount := rfl
@[simp] theorem State.hand_configPort (s : State) (q : Seq) (b : Body) : (s.hand q b).configPort = s.configPort := rfl
@[simp] theorem State.hand_partFrame (s : State) (q : Seq) (b : Body) : (s.hand q b).partFrame = s.partFrame := rfl
@[simp] theorem State.hand_losses (s : State) (q : Seq) (b : Body) : (s.hand q b).losses = s.losses := rfl
@[simp] theorem State.hand_seeking (s : State) (q : Seq) (b : Body) : (s.hand q b).seeking = s.seeking := rfl
@[simp] theorem State.hand_trunk (s : State) (q : Seq) (b : Body) : (s.hand q b).trunk = s.trunk := rfl
@[simp] theorem State.hand_lastLoss (s : State) (q : Seq) (b : Body) : (s.hand q b).lastLoss = s.lastLoss := rfl
@[simp] theorem State.hand_sessions (s : State) (q : Seq) (b : Body) : (s.hand q b).sessions = s.sessions := rfl
@[simp] theorem State.hand_sendQueue (s : State) (q : Seq) (b : Body) : (s.hand q b).sendQueue = s.sendQueue := rfl
@[simp] theorem State.hand_outstanding (s : State) (q : Seq) (b : Body) : (s.hand q b).outstanding = s.outstanding := rfl
@[simp] theorem State.hand_nextSeq (s : State) (q : Seq) (b : Body) : (s.hand q b).nextSeq = s.nextSeq := rfl
@[simp] theorem State.hand_expectedSeq (s : State) (q : Seq) (b : Body) : (s.hand q b).expectedSeq = s.expectedSeq := rfl
@[simp] theorem State.hand_mark (s : State) (q : Seq) (b : Body) : (s.hand q b).mark = s.mark := rfl
@[simp] theorem State.hand_retryCount (s : State) (q : Seq) (b : Body) : (s.hand q b).retryCount = s.retryCount := rfl
@[simp] theorem State.hand_silenceCount (s : State) (q : Seq) (b : Body) : (s.hand q b).silenceCount = s.silenceCount := rfl
@[simp] theorem State.hand_badFrames (s : State) (q : Seq) (b : Body) : (s.hand q b).badFrames = s.badFrames := rfl
@[simp] theorem State.hand_retransmissions (s : State) (q : Seq) (b : Body) : (s.hand q b).retransmissions = s.retransmissions := rfl
@[simp] theorem State.hand_peerHeard (s : State) (q : Seq) (b : Body) : (s.hand q b).peerHeard = s.peerHeard := rfl
@[simp] theorem State.hand_clash (s : State) (q : Seq) (b : Body) : (s.hand q b).clash = s.clash := rfl
@[simp] theorem State.hand_peerEnable (s : State) (q : Seq) (b : Body) : (s.hand q b).peerEnable = s.peerEnable := rfl
@[simp] theorem State.hand_peerFences (s : State) (q : Seq) (b : Body) : (s.hand q b).peerFences = s.peerFences := rfl
@[simp] theorem State.hand_joinMask (s : State) (q : Seq) (b : Body) : (s.hand q b).joinMask = s.joinMask := rfl
@[simp] theorem State.hand_joinSent (s : State) (q : Seq) (b : Body) : (s.hand q b).joinSent = s.joinSent := rfl
@[simp] theorem State.hand_fenceChanges (s : State) (q : Seq) (b : Body) : (s.hand q b).fenceChanges = s.fenceChanges := rfl
@[simp] theorem State.hand_controlTimer (s : State) (q : Seq) (b : Body) : (s.hand q b).controlTimer = s.controlTimer := rfl
@[simp] theorem State.hand_sending (s : State) (q : Seq) (b : Body) : (s.hand q b).sending = s.sending := rfl
@[simp] theorem State.hand_ring (s : State) (q : Seq) (b : Body) : (s.hand q b).ring = s.ring := rfl
@[simp] theorem State.hand_nextEntry (s : State) (q : Seq) (b : Body) : (s.hand q b).nextEntry = s.nextEntry := rfl
@[simp] theorem State.hand_ports (s : State) (q : Seq) (b : Body) : (s.hand q b).ports = s.ports := rfl
@[simp] theorem State.hand_scratch (s : State) (q : Seq) (b : Body) : (s.hand q b).scratch = s.scratch := rfl
@[simp] theorem State.hand_pending (s : State) (q : Seq) (b : Body) : (s.hand q b).pending = s.pending := rfl

/-! #### dropFrames -/

@[simp] theorem State.dropFrames_side (s : State) (qs : List Seq) : (s.dropFrames qs).side = s.side := rfl
@[simp] theorem State.dropFrames_loading (s : State) (qs : List Seq) : (s.dropFrames qs).loading = s.loading := rfl
@[simp] theorem State.dropFrames_params (s : State) (qs : List Seq) : (s.dropFrames qs).params = s.params := rfl
@[simp] theorem State.dropFrames_lanes (s : State) (qs : List Seq) : (s.dropFrames qs).lanes = s.lanes := rfl
@[simp] theorem State.dropFrames_pool (s : State) (qs : List Seq) : (s.dropFrames qs).pool = s.pool := rfl
@[simp] theorem State.dropFrames_slots (s : State) (qs : List Seq) : (s.dropFrames qs).slots = s.slots := rfl
@[simp] theorem State.dropFrames_queue (s : State) (qs : List Seq) : (s.dropFrames qs).queue = s.queue := rfl
@[simp] theorem State.dropFrames_arrivals (s : State) (qs : List Seq) : (s.dropFrames qs).arrivals = s.arrivals := rfl
@[simp] theorem State.dropFrames_units (s : State) (qs : List Seq) : (s.dropFrames qs).units = s.units := rfl
@[simp] theorem State.dropFrames_dwellQueue (s : State) (qs : List Seq) : (s.dropFrames qs).dwellQueue = s.dwellQueue := rfl
@[simp] theorem State.dropFrames_sweepTimer (s : State) (qs : List Seq) : (s.dropFrames qs).sweepTimer = s.sweepTimer := rfl
@[simp] theorem State.dropFrames_sweepCount (s : State) (qs : List Seq) : (s.dropFrames qs).sweepCount = s.sweepCount := rfl
@[simp] theorem State.dropFrames_configPort (s : State) (qs : List Seq) : (s.dropFrames qs).configPort = s.configPort := rfl
@[simp] theorem State.dropFrames_partFrame (s : State) (qs : List Seq) : (s.dropFrames qs).partFrame = s.partFrame := rfl
@[simp] theorem State.dropFrames_losses (s : State) (qs : List Seq) : (s.dropFrames qs).losses = s.losses := rfl
@[simp] theorem State.dropFrames_seeking (s : State) (qs : List Seq) : (s.dropFrames qs).seeking = s.seeking := rfl
@[simp] theorem State.dropFrames_trunk (s : State) (qs : List Seq) : (s.dropFrames qs).trunk = s.trunk := rfl
@[simp] theorem State.dropFrames_lastLoss (s : State) (qs : List Seq) : (s.dropFrames qs).lastLoss = s.lastLoss := rfl
@[simp] theorem State.dropFrames_sessions (s : State) (qs : List Seq) : (s.dropFrames qs).sessions = s.sessions := rfl
@[simp] theorem State.dropFrames_sendQueue (s : State) (qs : List Seq) : (s.dropFrames qs).sendQueue = s.sendQueue := rfl
@[simp] theorem State.dropFrames_outstanding (s : State) (qs : List Seq) : (s.dropFrames qs).outstanding = s.outstanding := rfl
@[simp] theorem State.dropFrames_nextSeq (s : State) (qs : List Seq) : (s.dropFrames qs).nextSeq = s.nextSeq := rfl
@[simp] theorem State.dropFrames_expectedSeq (s : State) (qs : List Seq) : (s.dropFrames qs).expectedSeq = s.expectedSeq := rfl
@[simp] theorem State.dropFrames_mark (s : State) (qs : List Seq) : (s.dropFrames qs).mark = s.mark := rfl
@[simp] theorem State.dropFrames_retryCount (s : State) (qs : List Seq) : (s.dropFrames qs).retryCount = s.retryCount := rfl
@[simp] theorem State.dropFrames_silenceCount (s : State) (qs : List Seq) : (s.dropFrames qs).silenceCount = s.silenceCount := rfl
@[simp] theorem State.dropFrames_sentSinceTick (s : State) (qs : List Seq) : (s.dropFrames qs).sentSinceTick = s.sentSinceTick := rfl
@[simp] theorem State.dropFrames_badFrames (s : State) (qs : List Seq) : (s.dropFrames qs).badFrames = s.badFrames := rfl
@[simp] theorem State.dropFrames_retransmissions (s : State) (qs : List Seq) : (s.dropFrames qs).retransmissions = s.retransmissions := rfl
@[simp] theorem State.dropFrames_peerHeard (s : State) (qs : List Seq) : (s.dropFrames qs).peerHeard = s.peerHeard := rfl
@[simp] theorem State.dropFrames_clash (s : State) (qs : List Seq) : (s.dropFrames qs).clash = s.clash := rfl
@[simp] theorem State.dropFrames_peerEnable (s : State) (qs : List Seq) : (s.dropFrames qs).peerEnable = s.peerEnable := rfl
@[simp] theorem State.dropFrames_peerFences (s : State) (qs : List Seq) : (s.dropFrames qs).peerFences = s.peerFences := rfl
@[simp] theorem State.dropFrames_joinMask (s : State) (qs : List Seq) : (s.dropFrames qs).joinMask = s.joinMask := rfl
@[simp] theorem State.dropFrames_joinSent (s : State) (qs : List Seq) : (s.dropFrames qs).joinSent = s.joinSent := rfl
@[simp] theorem State.dropFrames_fenceChanges (s : State) (qs : List Seq) : (s.dropFrames qs).fenceChanges = s.fenceChanges := rfl
@[simp] theorem State.dropFrames_controlTimer (s : State) (qs : List Seq) : (s.dropFrames qs).controlTimer = s.controlTimer := rfl
@[simp] theorem State.dropFrames_sending (s : State) (qs : List Seq) : (s.dropFrames qs).sending = s.sending := rfl
@[simp] theorem State.dropFrames_ring (s : State) (qs : List Seq) : (s.dropFrames qs).ring = s.ring := rfl
@[simp] theorem State.dropFrames_nextEntry (s : State) (qs : List Seq) : (s.dropFrames qs).nextEntry = s.nextEntry := rfl
@[simp] theorem State.dropFrames_ports (s : State) (qs : List Seq) : (s.dropFrames qs).ports = s.ports := rfl
@[simp] theorem State.dropFrames_scratch (s : State) (qs : List Seq) : (s.dropFrames qs).scratch = s.scratch := rfl
@[simp] theorem State.dropFrames_pending (s : State) (qs : List Seq) : (s.dropFrames qs).pending = s.pending := rfl

/-! #### cancelDwell -/

@[simp] theorem State.cancelDwell_side (s : State) (i : LaneId) : (s.cancelDwell i).side = s.side := rfl
@[simp] theorem State.cancelDwell_loading (s : State) (i : LaneId) : (s.cancelDwell i).loading = s.loading := rfl
@[simp] theorem State.cancelDwell_params (s : State) (i : LaneId) : (s.cancelDwell i).params = s.params := rfl
@[simp] theorem State.cancelDwell_lanes (s : State) (i : LaneId) : (s.cancelDwell i).lanes = s.lanes := rfl
@[simp] theorem State.cancelDwell_pool (s : State) (i : LaneId) : (s.cancelDwell i).pool = s.pool := rfl
@[simp] theorem State.cancelDwell_slots (s : State) (i : LaneId) : (s.cancelDwell i).slots = s.slots := rfl
@[simp] theorem State.cancelDwell_queue (s : State) (i : LaneId) : (s.cancelDwell i).queue = s.queue := rfl
@[simp] theorem State.cancelDwell_arrivals (s : State) (i : LaneId) : (s.cancelDwell i).arrivals = s.arrivals := rfl
@[simp] theorem State.cancelDwell_units (s : State) (i : LaneId) : (s.cancelDwell i).units = s.units := rfl
@[simp] theorem State.cancelDwell_sweepTimer (s : State) (i : LaneId) : (s.cancelDwell i).sweepTimer = s.sweepTimer := rfl
@[simp] theorem State.cancelDwell_sweepCount (s : State) (i : LaneId) : (s.cancelDwell i).sweepCount = s.sweepCount := rfl
@[simp] theorem State.cancelDwell_configPort (s : State) (i : LaneId) : (s.cancelDwell i).configPort = s.configPort := rfl
@[simp] theorem State.cancelDwell_partFrame (s : State) (i : LaneId) : (s.cancelDwell i).partFrame = s.partFrame := rfl
@[simp] theorem State.cancelDwell_losses (s : State) (i : LaneId) : (s.cancelDwell i).losses = s.losses := rfl
@[simp] theorem State.cancelDwell_seeking (s : State) (i : LaneId) : (s.cancelDwell i).seeking = s.seeking := rfl
@[simp] theorem State.cancelDwell_trunk (s : State) (i : LaneId) : (s.cancelDwell i).trunk = s.trunk := rfl
@[simp] theorem State.cancelDwell_lastLoss (s : State) (i : LaneId) : (s.cancelDwell i).lastLoss = s.lastLoss := rfl
@[simp] theorem State.cancelDwell_sessions (s : State) (i : LaneId) : (s.cancelDwell i).sessions = s.sessions := rfl
@[simp] theorem State.cancelDwell_sendQueue (s : State) (i : LaneId) : (s.cancelDwell i).sendQueue = s.sendQueue := rfl
@[simp] theorem State.cancelDwell_outstanding (s : State) (i : LaneId) : (s.cancelDwell i).outstanding = s.outstanding := rfl
@[simp] theorem State.cancelDwell_nextSeq (s : State) (i : LaneId) : (s.cancelDwell i).nextSeq = s.nextSeq := rfl
@[simp] theorem State.cancelDwell_expectedSeq (s : State) (i : LaneId) : (s.cancelDwell i).expectedSeq = s.expectedSeq := rfl
@[simp] theorem State.cancelDwell_mark (s : State) (i : LaneId) : (s.cancelDwell i).mark = s.mark := rfl
@[simp] theorem State.cancelDwell_retryCount (s : State) (i : LaneId) : (s.cancelDwell i).retryCount = s.retryCount := rfl
@[simp] theorem State.cancelDwell_silenceCount (s : State) (i : LaneId) : (s.cancelDwell i).silenceCount = s.silenceCount := rfl
@[simp] theorem State.cancelDwell_sentSinceTick (s : State) (i : LaneId) : (s.cancelDwell i).sentSinceTick = s.sentSinceTick := rfl
@[simp] theorem State.cancelDwell_badFrames (s : State) (i : LaneId) : (s.cancelDwell i).badFrames = s.badFrames := rfl
@[simp] theorem State.cancelDwell_retransmissions (s : State) (i : LaneId) : (s.cancelDwell i).retransmissions = s.retransmissions := rfl
@[simp] theorem State.cancelDwell_peerHeard (s : State) (i : LaneId) : (s.cancelDwell i).peerHeard = s.peerHeard := rfl
@[simp] theorem State.cancelDwell_clash (s : State) (i : LaneId) : (s.cancelDwell i).clash = s.clash := rfl
@[simp] theorem State.cancelDwell_peerEnable (s : State) (i : LaneId) : (s.cancelDwell i).peerEnable = s.peerEnable := rfl
@[simp] theorem State.cancelDwell_peerFences (s : State) (i : LaneId) : (s.cancelDwell i).peerFences = s.peerFences := rfl
@[simp] theorem State.cancelDwell_joinMask (s : State) (i : LaneId) : (s.cancelDwell i).joinMask = s.joinMask := rfl
@[simp] theorem State.cancelDwell_joinSent (s : State) (i : LaneId) : (s.cancelDwell i).joinSent = s.joinSent := rfl
@[simp] theorem State.cancelDwell_fenceChanges (s : State) (i : LaneId) : (s.cancelDwell i).fenceChanges = s.fenceChanges := rfl
@[simp] theorem State.cancelDwell_controlTimer (s : State) (i : LaneId) : (s.cancelDwell i).controlTimer = s.controlTimer := rfl
@[simp] theorem State.cancelDwell_txFrames (s : State) (i : LaneId) : (s.cancelDwell i).txFrames = s.txFrames := rfl
@[simp] theorem State.cancelDwell_sending (s : State) (i : LaneId) : (s.cancelDwell i).sending = s.sending := rfl
@[simp] theorem State.cancelDwell_ring (s : State) (i : LaneId) : (s.cancelDwell i).ring = s.ring := rfl
@[simp] theorem State.cancelDwell_nextEntry (s : State) (i : LaneId) : (s.cancelDwell i).nextEntry = s.nextEntry := rfl
@[simp] theorem State.cancelDwell_ports (s : State) (i : LaneId) : (s.cancelDwell i).ports = s.ports := rfl
@[simp] theorem State.cancelDwell_scratch (s : State) (i : LaneId) : (s.cancelDwell i).scratch = s.scratch := rfl
@[simp] theorem State.cancelDwell_pending (s : State) (i : LaneId) : (s.cancelDwell i).pending = s.pending := rfl

/-! #### moveLane -/

@[simp] theorem State.moveLane_side (s : State) (i : LaneId) (st : LaneState) : (s.moveLane i st).side = s.side := rfl
@[simp] theorem State.moveLane_loading (s : State) (i : LaneId) (st : LaneState) : (s.moveLane i st).loading = s.loading := rfl
@[simp] theorem State.moveLane_params (s : State) (i : LaneId) (st : LaneState) : (s.moveLane i st).params = s.params := rfl
@[simp] theorem State.moveLane_slots (s : State) (i : LaneId) (st : LaneState) : (s.moveLane i st).slots = s.slots := rfl
@[simp] theorem State.moveLane_queue (s : State) (i : LaneId) (st : LaneState) : (s.moveLane i st).queue = s.queue := rfl
@[simp] theorem State.moveLane_arrivals (s : State) (i : LaneId) (st : LaneState) : (s.moveLane i st).arrivals = s.arrivals := rfl
@[simp] theorem State.moveLane_units (s : State) (i : LaneId) (st : LaneState) : (s.moveLane i st).units = s.units := rfl
@[simp] theorem State.moveLane_sweepTimer (s : State) (i : LaneId) (st : LaneState) : (s.moveLane i st).sweepTimer = s.sweepTimer := rfl
@[simp] theorem State.moveLane_sweepCount (s : State) (i : LaneId) (st : LaneState) : (s.moveLane i st).sweepCount = s.sweepCount := rfl
@[simp] theorem State.moveLane_configPort (s : State) (i : LaneId) (st : LaneState) : (s.moveLane i st).configPort = s.configPort := rfl
@[simp] theorem State.moveLane_partFrame (s : State) (i : LaneId) (st : LaneState) : (s.moveLane i st).partFrame = s.partFrame := rfl
@[simp] theorem State.moveLane_losses (s : State) (i : LaneId) (st : LaneState) : (s.moveLane i st).losses = s.losses := rfl
@[simp] theorem State.moveLane_seeking (s : State) (i : LaneId) (st : LaneState) : (s.moveLane i st).seeking = s.seeking := rfl
@[simp] theorem State.moveLane_trunk (s : State) (i : LaneId) (st : LaneState) : (s.moveLane i st).trunk = s.trunk := rfl
@[simp] theorem State.moveLane_lastLoss (s : State) (i : LaneId) (st : LaneState) : (s.moveLane i st).lastLoss = s.lastLoss := rfl
@[simp] theorem State.moveLane_sessions (s : State) (i : LaneId) (st : LaneState) : (s.moveLane i st).sessions = s.sessions := rfl
@[simp] theorem State.moveLane_sendQueue (s : State) (i : LaneId) (st : LaneState) : (s.moveLane i st).sendQueue = s.sendQueue := rfl
@[simp] theorem State.moveLane_outstanding (s : State) (i : LaneId) (st : LaneState) : (s.moveLane i st).outstanding = s.outstanding := rfl
@[simp] theorem State.moveLane_nextSeq (s : State) (i : LaneId) (st : LaneState) : (s.moveLane i st).nextSeq = s.nextSeq := rfl
@[simp] theorem State.moveLane_expectedSeq (s : State) (i : LaneId) (st : LaneState) : (s.moveLane i st).expectedSeq = s.expectedSeq := rfl
@[simp] theorem State.moveLane_mark (s : State) (i : LaneId) (st : LaneState) : (s.moveLane i st).mark = s.mark := rfl
@[simp] theorem State.moveLane_retryCount (s : State) (i : LaneId) (st : LaneState) : (s.moveLane i st).retryCount = s.retryCount := rfl
@[simp] theorem State.moveLane_silenceCount (s : State) (i : LaneId) (st : LaneState) : (s.moveLane i st).silenceCount = s.silenceCount := rfl
@[simp] theorem State.moveLane_sentSinceTick (s : State) (i : LaneId) (st : LaneState) : (s.moveLane i st).sentSinceTick = s.sentSinceTick := rfl
@[simp] theorem State.moveLane_badFrames (s : State) (i : LaneId) (st : LaneState) : (s.moveLane i st).badFrames = s.badFrames := rfl
@[simp] theorem State.moveLane_retransmissions (s : State) (i : LaneId) (st : LaneState) : (s.moveLane i st).retransmissions = s.retransmissions := rfl
@[simp] theorem State.moveLane_peerHeard (s : State) (i : LaneId) (st : LaneState) : (s.moveLane i st).peerHeard = s.peerHeard := rfl
@[simp] theorem State.moveLane_clash (s : State) (i : LaneId) (st : LaneState) : (s.moveLane i st).clash = s.clash := rfl
@[simp] theorem State.moveLane_peerEnable (s : State) (i : LaneId) (st : LaneState) : (s.moveLane i st).peerEnable = s.peerEnable := rfl
@[simp] theorem State.moveLane_peerFences (s : State) (i : LaneId) (st : LaneState) : (s.moveLane i st).peerFences = s.peerFences := rfl
@[simp] theorem State.moveLane_joinMask (s : State) (i : LaneId) (st : LaneState) : (s.moveLane i st).joinMask = s.joinMask := rfl
@[simp] theorem State.moveLane_joinSent (s : State) (i : LaneId) (st : LaneState) : (s.moveLane i st).joinSent = s.joinSent := rfl
@[simp] theorem State.moveLane_fenceChanges (s : State) (i : LaneId) (st : LaneState) : (s.moveLane i st).fenceChanges = s.fenceChanges := rfl
@[simp] theorem State.moveLane_controlTimer (s : State) (i : LaneId) (st : LaneState) : (s.moveLane i st).controlTimer = s.controlTimer := rfl
@[simp] theorem State.moveLane_txFrames (s : State) (i : LaneId) (st : LaneState) : (s.moveLane i st).txFrames = s.txFrames := rfl
@[simp] theorem State.moveLane_sending (s : State) (i : LaneId) (st : LaneState) : (s.moveLane i st).sending = s.sending := rfl
@[simp] theorem State.moveLane_ring (s : State) (i : LaneId) (st : LaneState) : (s.moveLane i st).ring = s.ring := rfl
@[simp] theorem State.moveLane_nextEntry (s : State) (i : LaneId) (st : LaneState) : (s.moveLane i st).nextEntry = s.nextEntry := rfl
@[simp] theorem State.moveLane_ports (s : State) (i : LaneId) (st : LaneState) : (s.moveLane i st).ports = s.ports := rfl
@[simp] theorem State.moveLane_scratch (s : State) (i : LaneId) (st : LaneState) : (s.moveLane i st).scratch = s.scratch := rfl
@[simp] theorem State.moveLane_pending (s : State) (i : LaneId) (st : LaneState) : (s.moveLane i st).pending = s.pending := rfl

/-! #### freeLane -/

@[simp] theorem State.freeLane_side (s : State) (i : LaneId) (e : PoolEnd) : (State.freeLane e s i).side = s.side := rfl
@[simp] theorem State.freeLane_loading (s : State) (i : LaneId) (e : PoolEnd) : (State.freeLane e s i).loading = s.loading := rfl
@[simp] theorem State.freeLane_params (s : State) (i : LaneId) (e : PoolEnd) : (State.freeLane e s i).params = s.params := rfl
@[simp] theorem State.freeLane_slots (s : State) (i : LaneId) (e : PoolEnd) : (State.freeLane e s i).slots = s.slots := rfl
@[simp] theorem State.freeLane_queue (s : State) (i : LaneId) (e : PoolEnd) : (State.freeLane e s i).queue = s.queue := rfl
@[simp] theorem State.freeLane_arrivals (s : State) (i : LaneId) (e : PoolEnd) : (State.freeLane e s i).arrivals = s.arrivals := rfl
@[simp] theorem State.freeLane_units (s : State) (i : LaneId) (e : PoolEnd) : (State.freeLane e s i).units = s.units := rfl
@[simp] theorem State.freeLane_sweepTimer (s : State) (i : LaneId) (e : PoolEnd) : (State.freeLane e s i).sweepTimer = s.sweepTimer := rfl
@[simp] theorem State.freeLane_sweepCount (s : State) (i : LaneId) (e : PoolEnd) : (State.freeLane e s i).sweepCount = s.sweepCount := rfl
@[simp] theorem State.freeLane_configPort (s : State) (i : LaneId) (e : PoolEnd) : (State.freeLane e s i).configPort = s.configPort := rfl
@[simp] theorem State.freeLane_partFrame (s : State) (i : LaneId) (e : PoolEnd) : (State.freeLane e s i).partFrame = s.partFrame := rfl
@[simp] theorem State.freeLane_losses (s : State) (i : LaneId) (e : PoolEnd) : (State.freeLane e s i).losses = s.losses := rfl
@[simp] theorem State.freeLane_seeking (s : State) (i : LaneId) (e : PoolEnd) : (State.freeLane e s i).seeking = s.seeking := rfl
@[simp] theorem State.freeLane_trunk (s : State) (i : LaneId) (e : PoolEnd) : (State.freeLane e s i).trunk = s.trunk := rfl
@[simp] theorem State.freeLane_lastLoss (s : State) (i : LaneId) (e : PoolEnd) : (State.freeLane e s i).lastLoss = s.lastLoss := rfl
@[simp] theorem State.freeLane_sessions (s : State) (i : LaneId) (e : PoolEnd) : (State.freeLane e s i).sessions = s.sessions := rfl
@[simp] theorem State.freeLane_sendQueue (s : State) (i : LaneId) (e : PoolEnd) : (State.freeLane e s i).sendQueue = s.sendQueue := rfl
@[simp] theorem State.freeLane_outstanding (s : State) (i : LaneId) (e : PoolEnd) : (State.freeLane e s i).outstanding = s.outstanding := rfl
@[simp] theorem State.freeLane_nextSeq (s : State) (i : LaneId) (e : PoolEnd) : (State.freeLane e s i).nextSeq = s.nextSeq := rfl
@[simp] theorem State.freeLane_expectedSeq (s : State) (i : LaneId) (e : PoolEnd) : (State.freeLane e s i).expectedSeq = s.expectedSeq := rfl
@[simp] theorem State.freeLane_mark (s : State) (i : LaneId) (e : PoolEnd) : (State.freeLane e s i).mark = s.mark := rfl
@[simp] theorem State.freeLane_retryCount (s : State) (i : LaneId) (e : PoolEnd) : (State.freeLane e s i).retryCount = s.retryCount := rfl
@[simp] theorem State.freeLane_silenceCount (s : State) (i : LaneId) (e : PoolEnd) : (State.freeLane e s i).silenceCount = s.silenceCount := rfl
@[simp] theorem State.freeLane_sentSinceTick (s : State) (i : LaneId) (e : PoolEnd) : (State.freeLane e s i).sentSinceTick = s.sentSinceTick := rfl
@[simp] theorem State.freeLane_badFrames (s : State) (i : LaneId) (e : PoolEnd) : (State.freeLane e s i).badFrames = s.badFrames := rfl
@[simp] theorem State.freeLane_retransmissions (s : State) (i : LaneId) (e : PoolEnd) : (State.freeLane e s i).retransmissions = s.retransmissions := rfl
@[simp] theorem State.freeLane_peerHeard (s : State) (i : LaneId) (e : PoolEnd) : (State.freeLane e s i).peerHeard = s.peerHeard := rfl
@[simp] theorem State.freeLane_clash (s : State) (i : LaneId) (e : PoolEnd) : (State.freeLane e s i).clash = s.clash := rfl
@[simp] theorem State.freeLane_peerEnable (s : State) (i : LaneId) (e : PoolEnd) : (State.freeLane e s i).peerEnable = s.peerEnable := rfl
@[simp] theorem State.freeLane_peerFences (s : State) (i : LaneId) (e : PoolEnd) : (State.freeLane e s i).peerFences = s.peerFences := rfl
@[simp] theorem State.freeLane_joinMask (s : State) (i : LaneId) (e : PoolEnd) : (State.freeLane e s i).joinMask = s.joinMask := rfl
@[simp] theorem State.freeLane_joinSent (s : State) (i : LaneId) (e : PoolEnd) : (State.freeLane e s i).joinSent = s.joinSent := rfl
@[simp] theorem State.freeLane_fenceChanges (s : State) (i : LaneId) (e : PoolEnd) : (State.freeLane e s i).fenceChanges = s.fenceChanges := rfl
@[simp] theorem State.freeLane_controlTimer (s : State) (i : LaneId) (e : PoolEnd) : (State.freeLane e s i).controlTimer = s.controlTimer := rfl
@[simp] theorem State.freeLane_txFrames (s : State) (i : LaneId) (e : PoolEnd) : (State.freeLane e s i).txFrames = s.txFrames := rfl
@[simp] theorem State.freeLane_sending (s : State) (i : LaneId) (e : PoolEnd) : (State.freeLane e s i).sending = s.sending := rfl
@[simp] theorem State.freeLane_ring (s : State) (i : LaneId) (e : PoolEnd) : (State.freeLane e s i).ring = s.ring := rfl
@[simp] theorem State.freeLane_nextEntry (s : State) (i : LaneId) (e : PoolEnd) : (State.freeLane e s i).nextEntry = s.nextEntry := rfl
@[simp] theorem State.freeLane_ports (s : State) (i : LaneId) (e : PoolEnd) : (State.freeLane e s i).ports = s.ports := rfl
@[simp] theorem State.freeLane_pending (s : State) (i : LaneId) (e : PoolEnd) : (State.freeLane e s i).pending = s.pending := rfl

/-! #### quarantine -/

@[simp] theorem State.quarantine_side (s : State) (i : LaneId) : (s.quarantine i).side = s.side := rfl
@[simp] theorem State.quarantine_loading (s : State) (i : LaneId) : (s.quarantine i).loading = s.loading := rfl
@[simp] theorem State.quarantine_params (s : State) (i : LaneId) : (s.quarantine i).params = s.params := rfl
@[simp] theorem State.quarantine_slots (s : State) (i : LaneId) : (s.quarantine i).slots = s.slots := rfl
@[simp] theorem State.quarantine_queue (s : State) (i : LaneId) : (s.quarantine i).queue = s.queue := rfl
@[simp] theorem State.quarantine_arrivals (s : State) (i : LaneId) : (s.quarantine i).arrivals = s.arrivals := rfl
@[simp] theorem State.quarantine_units (s : State) (i : LaneId) : (s.quarantine i).units = s.units := rfl
@[simp] theorem State.quarantine_sweepTimer (s : State) (i : LaneId) : (s.quarantine i).sweepTimer = s.sweepTimer := rfl
@[simp] theorem State.quarantine_sweepCount (s : State) (i : LaneId) : (s.quarantine i).sweepCount = s.sweepCount := rfl
@[simp] theorem State.quarantine_configPort (s : State) (i : LaneId) : (s.quarantine i).configPort = s.configPort := rfl
@[simp] theorem State.quarantine_partFrame (s : State) (i : LaneId) : (s.quarantine i).partFrame = s.partFrame := rfl
@[simp] theorem State.quarantine_losses (s : State) (i : LaneId) : (s.quarantine i).losses = s.losses := rfl
@[simp] theorem State.quarantine_seeking (s : State) (i : LaneId) : (s.quarantine i).seeking = s.seeking := rfl
@[simp] theorem State.quarantine_trunk (s : State) (i : LaneId) : (s.quarantine i).trunk = s.trunk := rfl
@[simp] theorem State.quarantine_lastLoss (s : State) (i : LaneId) : (s.quarantine i).lastLoss = s.lastLoss := rfl
@[simp] theorem State.quarantine_sessions (s : State) (i : LaneId) : (s.quarantine i).sessions = s.sessions := rfl
@[simp] theorem State.quarantine_sendQueue (s : State) (i : LaneId) : (s.quarantine i).sendQueue = s.sendQueue := rfl
@[simp] theorem State.quarantine_outstanding (s : State) (i : LaneId) : (s.quarantine i).outstanding = s.outstanding := rfl
@[simp] theorem State.quarantine_nextSeq (s : State) (i : LaneId) : (s.quarantine i).nextSeq = s.nextSeq := rfl
@[simp] theorem State.quarantine_expectedSeq (s : State) (i : LaneId) : (s.quarantine i).expectedSeq = s.expectedSeq := rfl
@[simp] theorem State.quarantine_mark (s : State) (i : LaneId) : (s.quarantine i).mark = s.mark := rfl
@[simp] theorem State.quarantine_retryCount (s : State) (i : LaneId) : (s.quarantine i).retryCount = s.retryCount := rfl
@[simp] theorem State.quarantine_silenceCount (s : State) (i : LaneId) : (s.quarantine i).silenceCount = s.silenceCount := rfl
@[simp] theorem State.quarantine_sentSinceTick (s : State) (i : LaneId) : (s.quarantine i).sentSinceTick = s.sentSinceTick := rfl
@[simp] theorem State.quarantine_badFrames (s : State) (i : LaneId) : (s.quarantine i).badFrames = s.badFrames := rfl
@[simp] theorem State.quarantine_retransmissions (s : State) (i : LaneId) : (s.quarantine i).retransmissions = s.retransmissions := rfl
@[simp] theorem State.quarantine_peerHeard (s : State) (i : LaneId) : (s.quarantine i).peerHeard = s.peerHeard := rfl
@[simp] theorem State.quarantine_clash (s : State) (i : LaneId) : (s.quarantine i).clash = s.clash := rfl
@[simp] theorem State.quarantine_peerEnable (s : State) (i : LaneId) : (s.quarantine i).peerEnable = s.peerEnable := rfl
@[simp] theorem State.quarantine_peerFences (s : State) (i : LaneId) : (s.quarantine i).peerFences = s.peerFences := rfl
@[simp] theorem State.quarantine_joinMask (s : State) (i : LaneId) : (s.quarantine i).joinMask = s.joinMask := rfl
@[simp] theorem State.quarantine_joinSent (s : State) (i : LaneId) : (s.quarantine i).joinSent = s.joinSent := rfl
@[simp] theorem State.quarantine_fenceChanges (s : State) (i : LaneId) : (s.quarantine i).fenceChanges = s.fenceChanges := rfl
@[simp] theorem State.quarantine_controlTimer (s : State) (i : LaneId) : (s.quarantine i).controlTimer = s.controlTimer := rfl
@[simp] theorem State.quarantine_txFrames (s : State) (i : LaneId) : (s.quarantine i).txFrames = s.txFrames := rfl
@[simp] theorem State.quarantine_sending (s : State) (i : LaneId) : (s.quarantine i).sending = s.sending := rfl
@[simp] theorem State.quarantine_ring (s : State) (i : LaneId) : (s.quarantine i).ring = s.ring := rfl
@[simp] theorem State.quarantine_nextEntry (s : State) (i : LaneId) : (s.quarantine i).nextEntry = s.nextEntry := rfl
@[simp] theorem State.quarantine_ports (s : State) (i : LaneId) : (s.quarantine i).ports = s.ports := rfl
@[simp] theorem State.quarantine_scratch (s : State) (i : LaneId) : (s.quarantine i).scratch = s.scratch := rfl
@[simp] theorem State.quarantine_pending (s : State) (i : LaneId) : (s.quarantine i).pending = s.pending := rfl

/-! #### takeLane -/

@[simp] theorem State.takeLane_side (s : State) (i : LaneId) (st : LaneState) (pl : Place) : (s.takeLane i st pl).side = s.side := rfl
@[simp] theorem State.takeLane_loading (s : State) (i : LaneId) (st : LaneState) (pl : Place) : (s.takeLane i st pl).loading = s.loading := rfl
@[simp] theorem State.takeLane_params (s : State) (i : LaneId) (st : LaneState) (pl : Place) : (s.takeLane i st pl).params = s.params := rfl
@[simp] theorem State.takeLane_slots (s : State) (i : LaneId) (st : LaneState) (pl : Place) : (s.takeLane i st pl).slots = s.slots := rfl
@[simp] theorem State.takeLane_queue (s : State) (i : LaneId) (st : LaneState) (pl : Place) : (s.takeLane i st pl).queue = s.queue := rfl
@[simp] theorem State.takeLane_arrivals (s : State) (i : LaneId) (st : LaneState) (pl : Place) : (s.takeLane i st pl).arrivals = s.arrivals := rfl
@[simp] theorem State.takeLane_units (s : State) (i : LaneId) (st : LaneState) (pl : Place) : (s.takeLane i st pl).units = s.units := rfl
@[simp] theorem State.takeLane_sweepTimer (s : State) (i : LaneId) (st : LaneState) (pl : Place) : (s.takeLane i st pl).sweepTimer = s.sweepTimer := rfl
@[simp] theorem State.takeLane_sweepCount (s : State) (i : LaneId) (st : LaneState) (pl : Place) : (s.takeLane i st pl).sweepCount = s.sweepCount := rfl
@[simp] theorem State.takeLane_configPort (s : State) (i : LaneId) (st : LaneState) (pl : Place) : (s.takeLane i st pl).configPort = s.configPort := rfl
@[simp] theorem State.takeLane_partFrame (s : State) (i : LaneId) (st : LaneState) (pl : Place) : (s.takeLane i st pl).partFrame = s.partFrame := rfl
@[simp] theorem State.takeLane_losses (s : State) (i : LaneId) (st : LaneState) (pl : Place) : (s.takeLane i st pl).losses = s.losses := rfl
@[simp] theorem State.takeLane_seeking (s : State) (i : LaneId) (st : LaneState) (pl : Place) : (s.takeLane i st pl).seeking = s.seeking := rfl
@[simp] theorem State.takeLane_trunk (s : State) (i : LaneId) (st : LaneState) (pl : Place) : (s.takeLane i st pl).trunk = s.trunk := rfl
@[simp] theorem State.takeLane_lastLoss (s : State) (i : LaneId) (st : LaneState) (pl : Place) : (s.takeLane i st pl).lastLoss = s.lastLoss := rfl
@[simp] theorem State.takeLane_sessions (s : State) (i : LaneId) (st : LaneState) (pl : Place) : (s.takeLane i st pl).sessions = s.sessions := rfl
@[simp] theorem State.takeLane_sendQueue (s : State) (i : LaneId) (st : LaneState) (pl : Place) : (s.takeLane i st pl).sendQueue = s.sendQueue := rfl
@[simp] theorem State.takeLane_outstanding (s : State) (i : LaneId) (st : LaneState) (pl : Place) : (s.takeLane i st pl).outstanding = s.outstanding := rfl
@[simp] theorem State.takeLane_nextSeq (s : State) (i : LaneId) (st : LaneState) (pl : Place) : (s.takeLane i st pl).nextSeq = s.nextSeq := rfl
@[simp] theorem State.takeLane_expectedSeq (s : State) (i : LaneId) (st : LaneState) (pl : Place) : (s.takeLane i st pl).expectedSeq = s.expectedSeq := rfl
@[simp] theorem State.takeLane_mark (s : State) (i : LaneId) (st : LaneState) (pl : Place) : (s.takeLane i st pl).mark = s.mark := rfl
@[simp] theorem State.takeLane_retryCount (s : State) (i : LaneId) (st : LaneState) (pl : Place) : (s.takeLane i st pl).retryCount = s.retryCount := rfl
@[simp] theorem State.takeLane_silenceCount (s : State) (i : LaneId) (st : LaneState) (pl : Place) : (s.takeLane i st pl).silenceCount = s.silenceCount := rfl
@[simp] theorem State.takeLane_sentSinceTick (s : State) (i : LaneId) (st : LaneState) (pl : Place) : (s.takeLane i st pl).sentSinceTick = s.sentSinceTick := rfl
@[simp] theorem State.takeLane_badFrames (s : State) (i : LaneId) (st : LaneState) (pl : Place) : (s.takeLane i st pl).badFrames = s.badFrames := rfl
@[simp] theorem State.takeLane_retransmissions (s : State) (i : LaneId) (st : LaneState) (pl : Place) : (s.takeLane i st pl).retransmissions = s.retransmissions := rfl
@[simp] theorem State.takeLane_peerHeard (s : State) (i : LaneId) (st : LaneState) (pl : Place) : (s.takeLane i st pl).peerHeard = s.peerHeard := rfl
@[simp] theorem State.takeLane_clash (s : State) (i : LaneId) (st : LaneState) (pl : Place) : (s.takeLane i st pl).clash = s.clash := rfl
@[simp] theorem State.takeLane_peerEnable (s : State) (i : LaneId) (st : LaneState) (pl : Place) : (s.takeLane i st pl).peerEnable = s.peerEnable := rfl
@[simp] theorem State.takeLane_peerFences (s : State) (i : LaneId) (st : LaneState) (pl : Place) : (s.takeLane i st pl).peerFences = s.peerFences := rfl
@[simp] theorem State.takeLane_joinMask (s : State) (i : LaneId) (st : LaneState) (pl : Place) : (s.takeLane i st pl).joinMask = s.joinMask := rfl
@[simp] theorem State.takeLane_joinSent (s : State) (i : LaneId) (st : LaneState) (pl : Place) : (s.takeLane i st pl).joinSent = s.joinSent := rfl
@[simp] theorem State.takeLane_fenceChanges (s : State) (i : LaneId) (st : LaneState) (pl : Place) : (s.takeLane i st pl).fenceChanges = s.fenceChanges := rfl
@[simp] theorem State.takeLane_controlTimer (s : State) (i : LaneId) (st : LaneState) (pl : Place) : (s.takeLane i st pl).controlTimer = s.controlTimer := rfl
@[simp] theorem State.takeLane_txFrames (s : State) (i : LaneId) (st : LaneState) (pl : Place) : (s.takeLane i st pl).txFrames = s.txFrames := rfl
@[simp] theorem State.takeLane_sending (s : State) (i : LaneId) (st : LaneState) (pl : Place) : (s.takeLane i st pl).sending = s.sending := rfl
@[simp] theorem State.takeLane_ring (s : State) (i : LaneId) (st : LaneState) (pl : Place) : (s.takeLane i st pl).ring = s.ring := rfl
@[simp] theorem State.takeLane_nextEntry (s : State) (i : LaneId) (st : LaneState) (pl : Place) : (s.takeLane i st pl).nextEntry = s.nextEntry := rfl
@[simp] theorem State.takeLane_ports (s : State) (i : LaneId) (st : LaneState) (pl : Place) : (s.takeLane i st pl).ports = s.ports := rfl
@[simp] theorem State.takeLane_scratch (s : State) (i : LaneId) (st : LaneState) (pl : Place) : (s.takeLane i st pl).scratch = s.scratch := rfl
@[simp] theorem State.takeLane_pending (s : State) (i : LaneId) (st : LaneState) (pl : Place) : (s.takeLane i st pl).pending = s.pending := rfl

/-! #### setPeerFence -/

@[simp] theorem State.setPeerFence_side (s : State) (i : LaneId) : (s.setPeerFence i).side = s.side := rfl
@[simp] theorem State.setPeerFence_loading (s : State) (i : LaneId) : (s.setPeerFence i).loading = s.loading := rfl
@[simp] theorem State.setPeerFence_params (s : State) (i : LaneId) : (s.setPeerFence i).params = s.params := rfl
@[simp] theorem State.setPeerFence_pool (s : State) (i : LaneId) : (s.setPeerFence i).pool = s.pool := rfl
@[simp] theorem State.setPeerFence_slots (s : State) (i : LaneId) : (s.setPeerFence i).slots = s.slots := rfl
@[simp] theorem State.setPeerFence_queue (s : State) (i : LaneId) : (s.setPeerFence i).queue = s.queue := rfl
@[simp] theorem State.setPeerFence_arrivals (s : State) (i : LaneId) : (s.setPeerFence i).arrivals = s.arrivals := rfl
@[simp] theorem State.setPeerFence_units (s : State) (i : LaneId) : (s.setPeerFence i).units = s.units := rfl
@[simp] theorem State.setPeerFence_dwellQueue (s : State) (i : LaneId) : (s.setPeerFence i).dwellQueue = s.dwellQueue := rfl
@[simp] theorem State.setPeerFence_sweepTimer (s : State) (i : LaneId) : (s.setPeerFence i).sweepTimer = s.sweepTimer := rfl
@[simp] theorem State.setPeerFence_sweepCount (s : State) (i : LaneId) : (s.setPeerFence i).sweepCount = s.sweepCount := rfl
@[simp] theorem State.setPeerFence_configPort (s : State) (i : LaneId) : (s.setPeerFence i).configPort = s.configPort := rfl
@[simp] theorem State.setPeerFence_partFrame (s : State) (i : LaneId) : (s.setPeerFence i).partFrame = s.partFrame := rfl
@[simp] theorem State.setPeerFence_losses (s : State) (i : LaneId) : (s.setPeerFence i).losses = s.losses := rfl
@[simp] theorem State.setPeerFence_seeking (s : State) (i : LaneId) : (s.setPeerFence i).seeking = s.seeking := rfl
@[simp] theorem State.setPeerFence_trunk (s : State) (i : LaneId) : (s.setPeerFence i).trunk = s.trunk := rfl
@[simp] theorem State.setPeerFence_lastLoss (s : State) (i : LaneId) : (s.setPeerFence i).lastLoss = s.lastLoss := rfl
@[simp] theorem State.setPeerFence_sessions (s : State) (i : LaneId) : (s.setPeerFence i).sessions = s.sessions := rfl
@[simp] theorem State.setPeerFence_sendQueue (s : State) (i : LaneId) : (s.setPeerFence i).sendQueue = s.sendQueue := rfl
@[simp] theorem State.setPeerFence_outstanding (s : State) (i : LaneId) : (s.setPeerFence i).outstanding = s.outstanding := rfl
@[simp] theorem State.setPeerFence_nextSeq (s : State) (i : LaneId) : (s.setPeerFence i).nextSeq = s.nextSeq := rfl
@[simp] theorem State.setPeerFence_expectedSeq (s : State) (i : LaneId) : (s.setPeerFence i).expectedSeq = s.expectedSeq := rfl
@[simp] theorem State.setPeerFence_mark (s : State) (i : LaneId) : (s.setPeerFence i).mark = s.mark := rfl
@[simp] theorem State.setPeerFence_retryCount (s : State) (i : LaneId) : (s.setPeerFence i).retryCount = s.retryCount := rfl
@[simp] theorem State.setPeerFence_silenceCount (s : State) (i : LaneId) : (s.setPeerFence i).silenceCount = s.silenceCount := rfl
@[simp] theorem State.setPeerFence_sentSinceTick (s : State) (i : LaneId) : (s.setPeerFence i).sentSinceTick = s.sentSinceTick := rfl
@[simp] theorem State.setPeerFence_badFrames (s : State) (i : LaneId) : (s.setPeerFence i).badFrames = s.badFrames := rfl
@[simp] theorem State.setPeerFence_retransmissions (s : State) (i : LaneId) : (s.setPeerFence i).retransmissions = s.retransmissions := rfl
@[simp] theorem State.setPeerFence_peerHeard (s : State) (i : LaneId) : (s.setPeerFence i).peerHeard = s.peerHeard := rfl
@[simp] theorem State.setPeerFence_clash (s : State) (i : LaneId) : (s.setPeerFence i).clash = s.clash := rfl
@[simp] theorem State.setPeerFence_peerEnable (s : State) (i : LaneId) : (s.setPeerFence i).peerEnable = s.peerEnable := rfl
@[simp] theorem State.setPeerFence_peerFences (s : State) (i : LaneId) : (s.setPeerFence i).peerFences = s.peerFences := rfl
@[simp] theorem State.setPeerFence_joinMask (s : State) (i : LaneId) : (s.setPeerFence i).joinMask = s.joinMask := rfl
@[simp] theorem State.setPeerFence_joinSent (s : State) (i : LaneId) : (s.setPeerFence i).joinSent = s.joinSent := rfl
@[simp] theorem State.setPeerFence_fenceChanges (s : State) (i : LaneId) : (s.setPeerFence i).fenceChanges = s.fenceChanges := rfl
@[simp] theorem State.setPeerFence_controlTimer (s : State) (i : LaneId) : (s.setPeerFence i).controlTimer = s.controlTimer := rfl
@[simp] theorem State.setPeerFence_txFrames (s : State) (i : LaneId) : (s.setPeerFence i).txFrames = s.txFrames := rfl
@[simp] theorem State.setPeerFence_sending (s : State) (i : LaneId) : (s.setPeerFence i).sending = s.sending := rfl
@[simp] theorem State.setPeerFence_ring (s : State) (i : LaneId) : (s.setPeerFence i).ring = s.ring := rfl
@[simp] theorem State.setPeerFence_nextEntry (s : State) (i : LaneId) : (s.setPeerFence i).nextEntry = s.nextEntry := rfl
@[simp] theorem State.setPeerFence_ports (s : State) (i : LaneId) : (s.setPeerFence i).ports = s.ports := rfl
@[simp] theorem State.setPeerFence_scratch (s : State) (i : LaneId) : (s.setPeerFence i).scratch = s.scratch := rfl
@[simp] theorem State.setPeerFence_pending (s : State) (i : LaneId) : (s.setPeerFence i).pending = s.pending := rfl

/-! #### vacate -/

@[simp] theorem State.vacate_side (s : State) (c : SlotId) : (s.vacate c).side = s.side := rfl
@[simp] theorem State.vacate_loading (s : State) (c : SlotId) : (s.vacate c).loading = s.loading := rfl
@[simp] theorem State.vacate_params (s : State) (c : SlotId) : (s.vacate c).params = s.params := rfl
@[simp] theorem State.vacate_lanes (s : State) (c : SlotId) : (s.vacate c).lanes = s.lanes := rfl
@[simp] theorem State.vacate_pool (s : State) (c : SlotId) : (s.vacate c).pool = s.pool := rfl
@[simp] theorem State.vacate_queue (s : State) (c : SlotId) : (s.vacate c).queue = s.queue := rfl
@[simp] theorem State.vacate_arrivals (s : State) (c : SlotId) : (s.vacate c).arrivals = s.arrivals := rfl
@[simp] theorem State.vacate_units (s : State) (c : SlotId) : (s.vacate c).units = s.units := rfl
@[simp] theorem State.vacate_dwellQueue (s : State) (c : SlotId) : (s.vacate c).dwellQueue = s.dwellQueue := rfl
@[simp] theorem State.vacate_sweepTimer (s : State) (c : SlotId) : (s.vacate c).sweepTimer = s.sweepTimer := rfl
@[simp] theorem State.vacate_sweepCount (s : State) (c : SlotId) : (s.vacate c).sweepCount = s.sweepCount := rfl
@[simp] theorem State.vacate_configPort (s : State) (c : SlotId) : (s.vacate c).configPort = s.configPort := rfl
@[simp] theorem State.vacate_partFrame (s : State) (c : SlotId) : (s.vacate c).partFrame = s.partFrame := rfl
@[simp] theorem State.vacate_losses (s : State) (c : SlotId) : (s.vacate c).losses = s.losses := rfl
@[simp] theorem State.vacate_trunk (s : State) (c : SlotId) : (s.vacate c).trunk = s.trunk := rfl
@[simp] theorem State.vacate_lastLoss (s : State) (c : SlotId) : (s.vacate c).lastLoss = s.lastLoss := rfl
@[simp] theorem State.vacate_sessions (s : State) (c : SlotId) : (s.vacate c).sessions = s.sessions := rfl
@[simp] theorem State.vacate_sendQueue (s : State) (c : SlotId) : (s.vacate c).sendQueue = s.sendQueue := rfl
@[simp] theorem State.vacate_outstanding (s : State) (c : SlotId) : (s.vacate c).outstanding = s.outstanding := rfl
@[simp] theorem State.vacate_nextSeq (s : State) (c : SlotId) : (s.vacate c).nextSeq = s.nextSeq := rfl
@[simp] theorem State.vacate_expectedSeq (s : State) (c : SlotId) : (s.vacate c).expectedSeq = s.expectedSeq := rfl
@[simp] theorem State.vacate_mark (s : State) (c : SlotId) : (s.vacate c).mark = s.mark := rfl
@[simp] theorem State.vacate_retryCount (s : State) (c : SlotId) : (s.vacate c).retryCount = s.retryCount := rfl
@[simp] theorem State.vacate_silenceCount (s : State) (c : SlotId) : (s.vacate c).silenceCount = s.silenceCount := rfl
@[simp] theorem State.vacate_sentSinceTick (s : State) (c : SlotId) : (s.vacate c).sentSinceTick = s.sentSinceTick := rfl
@[simp] theorem State.vacate_badFrames (s : State) (c : SlotId) : (s.vacate c).badFrames = s.badFrames := rfl
@[simp] theorem State.vacate_retransmissions (s : State) (c : SlotId) : (s.vacate c).retransmissions = s.retransmissions := rfl
@[simp] theorem State.vacate_peerHeard (s : State) (c : SlotId) : (s.vacate c).peerHeard = s.peerHeard := rfl
@[simp] theorem State.vacate_clash (s : State) (c : SlotId) : (s.vacate c).clash = s.clash := rfl
@[simp] theorem State.vacate_peerEnable (s : State) (c : SlotId) : (s.vacate c).peerEnable = s.peerEnable := rfl
@[simp] theorem State.vacate_peerFences (s : State) (c : SlotId) : (s.vacate c).peerFences = s.peerFences := rfl
@[simp] theorem State.vacate_joinMask (s : State) (c : SlotId) : (s.vacate c).joinMask = s.joinMask := rfl
@[simp] theorem State.vacate_joinSent (s : State) (c : SlotId) : (s.vacate c).joinSent = s.joinSent := rfl
@[simp] theorem State.vacate_fenceChanges (s : State) (c : SlotId) : (s.vacate c).fenceChanges = s.fenceChanges := rfl
@[simp] theorem State.vacate_controlTimer (s : State) (c : SlotId) : (s.vacate c).controlTimer = s.controlTimer := rfl
@[simp] theorem State.vacate_txFrames (s : State) (c : SlotId) : (s.vacate c).txFrames = s.txFrames := rfl
@[simp] theorem State.vacate_sending (s : State) (c : SlotId) : (s.vacate c).sending = s.sending := rfl
@[simp] theorem State.vacate_ring (s : State) (c : SlotId) : (s.vacate c).ring = s.ring := rfl
@[simp] theorem State.vacate_nextEntry (s : State) (c : SlotId) : (s.vacate c).nextEntry = s.nextEntry := rfl
@[simp] theorem State.vacate_ports (s : State) (c : SlotId) : (s.vacate c).ports = s.ports := rfl
@[simp] theorem State.vacate_pending (s : State) (c : SlotId) : (s.vacate c).pending = s.pending := rfl

end Machine

end Sys2Proof
end

