-- ==== Sys2Proof/Laws/Ops.lean ====
section
/-! SUPPORT. Sys2Proof/Laws/Ops.lean: for each shared operation one lemma that says once everything it can do, and the
fields it leaves alone. -/

namespace Sys2Proof.Machine

open Sys2Proof

/-! ### The transmitter and the send queue -/

/-- A sequenced frame joins the tail of the frame list (R126). -/
@[simp] theorem queueFrame_msg (q : List Frame) (n a : Seq) (m : Msg) :
    queueFrame q ⟨n, a, .msg m⟩ = q ++ [⟨n, a, .msg m⟩] := by
  have h : ∀ b : Body, sameUnsequenced b (.msg m) = false := by intro b; cases b <;> rfl
  simp [queueFrame, h]

/-- Transmission changes the queues of the channel alone. -/
theorem State.transmit_eq (n : Nat) (s : State) : ∃ q o k f b, State.transmit n s =
    { s with sendQueue := q, outstanding := o, nextSeq := k, txFrames := f, sentSinceTick := b } := by
  induction n generalizing s with
  | zero => exact ⟨_, _, _, _, _, rfl⟩
  | succ n ih =>
    unfold State.transmit
    split
    · exact ⟨_, _, _, _, _, rfl⟩
    · split
      · obtain ⟨q, o, k, f, b, h⟩ := ih _
        exact ⟨q, o, k, f, b, h⟩
      · exact ⟨_, _, _, _, _, rfl⟩

/-- R130, R131: what placing a message can change. -/
theorem State.send_eq (s : State) (m : Msg) : ∃ q o k f b v, s.send m =
    { s with
      sendQueue := q, outstanding := o, nextSeq := k, txFrames := f, sentSinceTick := b,
      scratch := { s.scratch with overflow := v } } := by
  unfold State.send
  split
  · exact ⟨_, _, _, _, _, _, rfl⟩
  split
  · exact ⟨_, _, _, _, _, _, rfl⟩
  split
  · exact ⟨_, _, _, _, _, _, rfl⟩
  · obtain ⟨q, o, k, f, b, h⟩ := State.transmit_eq Config.window { s with sendQueue := s.sendQueue ++ [m] }
    exact ⟨q, o, k, f, b, s.scratch.overflow, h⟩

/-- R133: what an ack can change. -/
theorem State.acknowledge_eq (s : State) (a : Seq) : ∃ q o k f b m r, s.acknowledge a =
    { s with
      sendQueue := q, outstanding := o, nextSeq := k, txFrames := f, sentSinceTick := b, mark := m, retryCount := r } := by
  unfold State.acknowledge
  split
  · exact ⟨_, _, _, _, _, _, _, rfl⟩
  · dsimp only
    split
    · obtain ⟨q, o, k, f, b, h⟩ := State.transmit_eq Config.window _
      exact ⟨q, o, k, f, b, false, 0, h⟩
    · exact ⟨_, _, _, _, _, _, _, rfl⟩

/-- R130: nothing is placed while the trunk is not UP. -/
theorem State.send_of_not_up (s : State) (m : Msg) (h : s.trunk ≠ .up) : s.send m = s := by
  simp [State.send, h]

/-- Nothing waits, so nothing is transmitted. -/
theorem State.transmit_of_empty (n : Nat) (s : State) (h : s.sendQueue = []) : State.transmit n s = s := by
  cases n with
  | zero => rfl
  | succ n => unfold State.transmit; rw [h]

/-- R131: the one message that waits goes out while the window is open. -/
theorem State.transmit_one (n : Nat) (s : State) (m : Msg) (h : s.sendQueue = [m])
    (room : s.outstanding.length < Config.window) : State.transmit (n + 1) s = { s.sent m with sendQueue := [] } := by
  unfold State.transmit
  rw [h]
  dsimp only
  rw [if_pos room, State.transmit_of_empty n _ rfl]
  simp [State.hand, State.sent]

/-- R131: a message that finds the window open and none before it goes out at once. -/
theorem State.send_of_canSend (s : State) (m : Msg) (h : s.CanSend) (v : s.scratch.overflow = false) :
    s.send m = s.sent m := by
  obtain ⟨up, empty, room⟩ := h
  have cap : ¬ Config.sendCapacity ≤ s.sendQueue.length := by simp [empty, Config.sendCapacity]
  unfold State.send
  rw [if_neg (by simp [up]), if_neg (by simp [v]), if_neg cap, empty]
  refine (State.transmit_one 7 { s with sendQueue := [m] } m rfl room).trans ?_
  simp only [State.sent, empty]

/-- R130, R131: transmission moves messages from the send queue to the outstanding list: none is lost or reordered. -/
@[simp] theorem State.placed_transmit (n : Nat) (s : State) : (State.transmit n s).placed = s.placed := by
  induction n generalizing s with
  | zero => rfl
  | succ n ih =>
    unfold State.transmit
    split
    · rfl
    · rename_i m rest h
      split
      · rw [ih]; simp [State.placed, State.hand, h]
      · rfl

/-- R130: a message that finds room joins the tail of the messages placed. -/
theorem State.placed_send (s : State) (m : Msg) (up : s.trunk = .up) (v : s.scratch.overflow = false)
    (room : s.sendQueue.length < Config.sendCapacity) : (s.send m).placed = s.placed ++ [m] := by
  simp only [State.send, up, ne_eq, not_true_eq_false, if_false, v, Bool.false_eq_true, Nat.not_le.mpr room]
  rw [State.placed_transmit]
  simp [State.placed]

/-- R130: a message that finds room marks no loss. -/
theorem State.send_scratch (s : State) (m : Msg) (room : s.sendQueue.length < Config.sendCapacity) :
    (s.send m).scratch = s.scratch := by
  unfold State.send
  split
  · rfl
  split
  · rfl
  · rw [if_neg (Nat.not_le.mpr room)]
    obtain ⟨q, o, k, f, b, h⟩ := State.transmit_eq Config.window { s with sendQueue := s.sendQueue ++ [m] }
    rw [h]

/-- One more number just before the next. -/
theorem before_succ {w : Nat} (next : BitVec w) (n : Nat) :
    before (next + 1) (n + 1) = before next n ++ [next] := by
  have e : BitVec.ofNat w (n + 1) = BitVec.ofNat w n + 1 := by
    apply BitVec.eq_of_toNat_eq; simp [BitVec.toNat_ofNat, BitVec.toNat_add]
  simp only [before, List.range_succ, List.map_append, List.map_cons, List.map_nil, e]
  congr 1
  · apply List.map_congr_left
    intro k _
    ring
  · congr 1
    ring

/-- What is left of a run of numbers just before the next, when the oldest go, is such a run. -/
theorem drop_before {w : Nat} (next : BitVec w) (n k : Nat) (h : k ≤ n) :
    (before next n).drop k = before next (n - k) := by
  induction k with
  | zero => simp
  | succ k ih =>
    obtain ⟨m, rfl⟩ : ∃ m, n = k + 1 + m := ⟨n - (k + 1), by omega⟩
    rw [← List.drop_drop, ih (by omega)]
    have e : k + 1 + m - k = m + 1 := by omega
    have f : k + 1 + m - (k + 1) = m := by omega
    rw [e, f]
    have c : ∀ j : Nat, BitVec.ofNat w (j + 1) = BitVec.ofNat w j + 1 := by
      intro j; apply BitVec.eq_of_toNat_eq; simp [BitVec.toNat_ofNat, BitVec.toNat_add]
    simp only [before, List.range_succ_eq_map, List.map_cons, List.drop_succ_cons, List.drop_zero, List.map_map]
    apply List.map_congr_left
    intro j _
    simp only [Function.comp_apply, Nat.succ_eq_add_one, c]
    ring

/-! ### The fault log (R167) -/

theorem State.logKept_log (s : State) (k : LogKind) (l : Option LaneId) (t : Option Tag) (d : Half) (h : s.LogKept) :
    (s.log k l t d).LogKept := by
  obtain ⟨a, b⟩ := h
  have key : ∀ r : List LogEntry, r.length ≤ 31 → r.map LogEntry.seq = before s.nextEntry r.length →
      ({ s with ring := r ++ [⟨s.nextEntry, s.sweepCount, s.sessions, k, l, t, d⟩], nextEntry := s.nextEntry + 1 } :
        State).LogKept := by
    intro r x y
    refine ⟨by simp; omega, ?_⟩
    simp only [List.map_append, List.length_append, List.map_cons, List.map_nil, List.length_cons, List.length_nil,
      Nat.zero_add]
    rw [before_succ, y]
  unfold State.log
  split
  · have c : s.ring.length = 32 := by omega
    refine key _ (by simp [c]) ?_
    rw [← List.drop_one, List.map_drop, b, drop_before _ _ _ (by omega)]
    simp
  · exact key _ (by omega) b

/-- The newest entry of the ring is the one just logged. -/
@[simp] theorem State.getLast?_log (s : State) (k : LogKind) (l : Option LaneId) (t : Option Tag) (d : Half) :
    (s.log k l t d).ring.getLast? = some ⟨s.nextEntry, s.sweepCount, s.sessions, k, l, t, d⟩ := by
  simp [State.log]

/-! ### Notices (R160) -/

theorem noticesKept_queueNotice (q : List Notice) (n : Notice) (h : noticesKept q) : noticesKept (queueNotice q n) := by
  obtain ⟨a, b⟩ := h
  unfold queueNotice
  split
  · refine ⟨by simp; omega, fun e => ?_⟩
    simp at e; omega
  · rename_i c
    split
    · rename_i k e
      have l : (q.dropLast ++ [Notice.noticesLost (satSucc 255 k)]).length = q.length := by
        simp; omega
      exact ⟨by omega, fun _ => by simp [Notice.isMarker]⟩
    · split
      · exact ⟨by simp; omega, fun _ => by simp [Notice.isMarker]⟩
      · exact ⟨a, b⟩

theorem State.notify_of_absent (s : State) (h : PortId) (n : Notice) (e : (s.port h).link = .absent) :
    s.notify h n = s := by
  simp [State.notify, Port.present, e]

theorem State.notify_of_present (s : State) (h : PortId) (n : Notice) (e : (s.port h).link ≠ .absent) :
    s.notify h n = s.modPort h fun p => { p with notices := queueNotice p.notices n } := by
  simp [State.notify, Port.present, e]

theorem State.notify_eq (s : State) (h : PortId) (n : Notice) : ∃ ps, s.notify h n = { s with ports := ps } := by
  unfold State.notify
  split
  · exact ⟨_, rfl⟩
  · exact ⟨_, rfl⟩

/-- R148, R160: a notice changes no link, flag, cursor or transaction of any port. -/
theorem State.port_notify (s : State) (h g : PortId) (n : Notice) :
    (s.notify h n).port g =
      if g = h ∧ (s.port h).link ≠ .absent then { s.port h with notices := queueNotice (s.port h).notices n }
      else s.port g := by
  by_cases e : (s.port h).link = .absent
  · simp [State.notify_of_absent s h n e, e]
  · rw [State.notify_of_present s h n e, State.port_modPort]
    by_cases k : g = h <;> simp [k, e]

theorem State.noticesKept_notify (s : State) (h : PortId) (n : Notice) (k : s.NoticesKept) :
    (s.notify h n).NoticesKept := by
  intro g
  rw [State.port_notify]
  split
  · rename_i e
    refine ⟨noticesKept_queueNotice _ _ (k h).1, fun c => ?_⟩
    exact absurd c e.2
  · exact k g

/-- R141, R144: a notice for every host reaches each port once. -/
theorem State.port_notifyAll (s : State) (g : PortId) (n : Notice) :
    (s.notifyAll n).port g =
      if (s.port g).link ≠ .absent then { s.port g with notices := queueNotice (s.port g).notices n } else s.port g := by
  have key : ∀ (l : List PortId) (t : State), l.Nodup → (l.foldl (fun s h => s.notify h n) t).port g =
      if g ∈ l ∧ (t.port g).link ≠ .absent then { t.port g with notices := queueNotice (t.port g).notices n }
      else t.port g := by
    intro l
    induction l with
    | nil => intro t _; simp
    | cons a l ih =>
      intro t nd
      rw [List.foldl_cons, ih _ (List.nodup_cons.mp nd).2]
      have na := (List.nodup_cons.mp nd).1
      by_cases e : g = a
      · subst e
        rw [if_neg (by simp [na]), State.port_notify]
        simp
      · rw [State.port_notify]
        simp [e]
  unfold State.notifyAll
  rw [key _ _ (indexes_nodup 6)]
  simp

/-! ### The fields they leave alone -/

/-! #### send -/

@[simp] theorem State.send_side (s : State) (m : Msg) : (s.send m).side = s.side := by
  obtain ⟨_, _, _, _, _, _, h⟩ := s.send_eq m; rw [h]
@[simp] theorem State.send_loading (s : State) (m : Msg) : (s.send m).loading = s.loading := by
  obtain ⟨_, _, _, _, _, _, h⟩ := s.send_eq m; rw [h]
@[simp] theorem State.send_params (s : State) (m : Msg) : (s.send m).params = s.params := by
  obtain ⟨_, _, _, _, _, _, h⟩ := s.send_eq m; rw [h]
@[simp] theorem State.send_lanes (s : State) (m : Msg) : (s.send m).lanes = s.lanes := by
  obtain ⟨_, _, _, _, _, _, h⟩ := s.send_eq m; rw [h]
@[simp] theorem State.send_pool (s : State) (m : Msg) : (s.send m).pool = s.pool := by
  obtain ⟨_, _, _, _, _, _, h⟩ := s.send_eq m; rw [h]
@[simp] theorem State.send_slots (s : State) (m : Msg) : (s.send m).slots = s.slots := by
  obtain ⟨_, _, _, _, _, _, h⟩ := s.send_eq m; rw [h]
@[simp] theorem State.send_queue (s : State) (m : Msg) : (s.send m).queue = s.queue := by
  obtain ⟨_, _, _, _, _, _, h⟩ := s.send_eq m; rw [h]
@[simp] theorem State.send_arrivals (s : State) (m : Msg) : (s.send m).arrivals = s.arrivals := by
  obtain ⟨_, _, _, _, _, _, h⟩ := s.send_eq m; rw [h]
@[simp] theorem State.send_units (s : State) (m : Msg) : (s.send m).units = s.units := by
  obtain ⟨_, _, _, _, _, _, h⟩ := s.send_eq m; rw [h]
@[simp] theorem State.send_dwellQueue (s : State) (m : Msg) : (s.send m).dwellQueue = s.dwellQueue := by
  obtain ⟨_, _, _, _, _, _, h⟩ := s.send_eq m; rw [h]
@[simp] theorem State.send_sweepTimer (s : State) (m : Msg) : (s.send m).sweepTimer = s.sweepTimer := by
  obtain ⟨_, _, _, _, _, _, h⟩ := s.send_eq m; rw [h]
@[simp] theorem State.send_sweepCount (s : State) (m : Msg) : (s.send m).sweepCount = s.sweepCount := by
  obtain ⟨_, _, _, _, _, _, h⟩ := s.send_eq m; rw [h]
@[simp] theorem State.send_configPort (s : State) (m : Msg) : (s.send m).configPort = s.configPort := by
  obtain ⟨_, _, _, _, _, _, h⟩ := s.send_eq m; rw [h]
@[simp] theorem State.send_partFrame (s : State) (m : Msg) : (s.send m).partFrame = s.partFrame := by
  obtain ⟨_, _, _, _, _, _, h⟩ := s.send_eq m; rw [h]
@[simp] theorem State.send_losses (s : State) (m : Msg) : (s.send m).losses = s.losses := by
  obtain ⟨_, _, _, _, _, _, h⟩ := s.send_eq m; rw [h]
@[simp] theorem State.send_seeking (s : State) (m : Msg) : (s.send m).seeking = s.seeking := by
  obtain ⟨_, _, _, _, _, _, h⟩ := s.send_eq m; rw [h]
@[simp] theorem State.send_trunk (s : State) (m : Msg) : (s.send m).trunk = s.trunk := by
  obtain ⟨_, _, _, _, _, _, h⟩ := s.send_eq m; rw [h]
@[simp] theorem State.send_lastLoss (s : State) (m : Msg) : (s.send m).lastLoss = s.lastLoss := by
  obtain ⟨_, _, _, _, _, _, h⟩ := s.send_eq m; rw [h]
@[simp] theorem State.send_sessions (s : State) (m : Msg) : (s.send m).sessions = s.sessions := by
  obtain ⟨_, _, _, _, _, _, h⟩ := s.send_eq m; rw [h]
@[simp] theorem State.send_expectedSeq (s : State) (m : Msg) : (s.send m).expectedSeq = s.expectedSeq := by
  obtain ⟨_, _, _, _, _, _, h⟩ := s.send_eq m; rw [h]
@[simp] theorem State.send_mark (s : State) (m : Msg) : (s.send m).mark = s.mark := by
  obtain ⟨_, _, _, _, _, _, h⟩ := s.send_eq m; rw [h]
@[simp] theorem State.send_retryCount (s : State) (m : Msg) : (s.send m).retryCount = s.retryCount := by
  obtain ⟨_, _, _, _, _, _, h⟩ := s.send_eq m; rw [h]
@[simp] theorem State.send_silenceCount (s : State) (m : Msg) : (s.send m).silenceCount = s.silenceCount := by
  obtain ⟨_, _, _, _, _, _, h⟩ := s.send_eq m; rw [h]
@[simp] theorem State.send_badFrames (s : State) (m : Msg) : (s.send m).badFrames = s.badFrames := by
  obtain ⟨_, _, _, _, _, _, h⟩ := s.send_eq m; rw [h]
@[simp] theorem State.send_retransmissions (s : State) (m : Msg) : (s.send m).retransmissions = s.retransmissions := by
  obtain ⟨_, _, _, _, _, _, h⟩ := s.send_eq m; rw [h]
@[simp] theorem State.send_peerHeard (s : State) (m : Msg) : (s.send m).peerHeard = s.peerHeard := by
  obtain ⟨_, _, _, _, _, _, h⟩ := s.send_eq m; rw [h]
@[simp] theorem State.send_clash (s : State) (m : Msg) : (s.send m).clash = s.clash := by
  obtain ⟨_, _, _, _, _, _, h⟩ := s.send_eq m; rw [h]
@[simp] theorem State.send_peerEnable (s : State) (m : Msg) : (s.send m).peerEnable = s.peerEnable := by
  obtain ⟨_, _, _, _, _, _, h⟩ := s.send_eq m; rw [h]
@[simp] theorem State.send_peerFences (s : State) (m : Msg) : (s.send m).peerFences = s.peerFences := by
  obtain ⟨_, _, _, _, _, _, h⟩ := s.send_eq m; rw [h]
@[simp] theorem State.send_joinMask (s : State) (m : Msg) : (s.send m).joinMask = s.joinMask := by
  obtain ⟨_, _, _, _, _, _, h⟩ := s.send_eq m; rw [h]
@[simp] theorem State.send_joinSent (s : State) (m : Msg) : (s.send m).joinSent = s.joinSent := by
  obtain ⟨_, _, _, _, _, _, h⟩ := s.send_eq m; rw [h]
@[simp] theorem State.send_fenceChanges (s : State) (m : Msg) : (s.send m).fenceChanges = s.fenceChanges := by
  obtain ⟨_, _, _, _, _, _, h⟩ := s.send_eq m; rw [h]
@[simp] theorem State.send_controlTimer (s : State) (m : Msg) : (s.send m).controlTimer = s.controlTimer := by
  obtain ⟨_, _, _, _, _, _, h⟩ := s.send_eq m; rw [h]
@[simp] theorem State.send_sending (s : State) (m : Msg) : (s.send m).sending = s.sending := by
  obtain ⟨_, _, _, _, _, _, h⟩ := s.send_eq m; rw [h]
@[simp] theorem State.send_ring (s : State) (m : Msg) : (s.send m).ring = s.ring := by
  obtain ⟨_, _, _, _, _, _, h⟩ := s.send_eq m; rw [h]
@[simp] theorem State.send_nextEntry (s : State) (m : Msg) : (s.send m).nextEntry = s.nextEntry := by
  obtain ⟨_, _, _, _, _, _, h⟩ := s.send_eq m; rw [h]
@[simp] theorem State.send_ports (s : State) (m : Msg) : (s.send m).ports = s.ports := by
  obtain ⟨_, _, _, _, _, _, h⟩ := s.send_eq m; rw [h]
@[simp] theorem State.send_pending (s : State) (m : Msg) : (s.send m).pending = s.pending := by
  obtain ⟨_, _, _, _, _, _, h⟩ := s.send_eq m; rw [h]

/-! #### acknowledge -/

@[simp] theorem State.acknowledge_side (s : State) (a : Seq) : (s.acknowledge a).side = s.side := by
  obtain ⟨_, _, _, _, _, _, _, h⟩ := s.acknowledge_eq a; rw [h]
@[simp] theorem State.acknowledge_loading (s : State) (a : Seq) : (s.acknowledge a).loading = s.loading := by
  obtain ⟨_, _, _, _, _, _, _, h⟩ := s.acknowledge_eq a; rw [h]
@[simp] theorem State.acknowledge_params (s : State) (a : Seq) : (s.acknowledge a).params = s.params := by
  obtain ⟨_, _, _, _, _, _, _, h⟩ := s.acknowledge_eq a; rw [h]
@[simp] theorem State.acknowledge_lanes (s : State) (a : Seq) : (s.acknowledge a).lanes = s.lanes := by
  obtain ⟨_, _, _, _, _, _, _, h⟩ := s.acknowledge_eq a; rw [h]
@[simp] theorem State.acknowledge_pool (s : State) (a : Seq) : (s.acknowledge a).pool = s.pool := by
  obtain ⟨_, _, _, _, _, _, _, h⟩ := s.acknowledge_eq a; rw [h]
@[simp] theorem State.acknowledge_slots (s : State) (a : Seq) : (s.acknowledge a).slots = s.slots := by
  obtain ⟨_, _, _, _, _, _, _, h⟩ := s.acknowledge_eq a; rw [h]
@[simp] theorem State.acknowledge_queue (s : State) (a : Seq) : (s.acknowledge a).queue = s.queue := by
  obtain ⟨_, _, _, _, _, _, _, h⟩ := s.acknowledge_eq a; rw [h]
@[simp] theorem State.acknowledge_arrivals (s : State) (a : Seq) : (s.acknowledge a).arrivals = s.arrivals := by
  obtain ⟨_, _, _, _, _, _, _, h⟩ := s.acknowledge_eq a; rw [h]
@[simp] theorem State.acknowledge_units (s : State) (a : Seq) : (s.acknowledge a).units = s.units := by
  obtain ⟨_, _, _, _, _, _, _, h⟩ := s.acknowledge_eq a; rw [h]
@[simp] theorem State.acknowledge_dwellQueue (s : State) (a : Seq) : (s.acknowledge a).dwellQueue = s.dwellQueue := by
  obtain ⟨_, _, _, _, _, _, _, h⟩ := s.acknowledge_eq a; rw [h]
@[simp] theorem State.acknowledge_sweepTimer (s : State) (a : Seq) : (s.acknowledge a).sweepTimer = s.sweepTimer := by
  obtain ⟨_, _, _, _, _, _, _, h⟩ := s.acknowledge_eq a; rw [h]
@[simp] theorem State.acknowledge_sweepCount (s : State) (a : Seq) : (s.acknowledge a).sweepCount = s.sweepCount := by
  obtain ⟨_, _, _, _, _, _, _, h⟩ := s.acknowledge_eq a; rw [h]
@[simp] theorem State.acknowledge_configPort (s : State) (a : Seq) : (s.acknowledge a).configPort = s.configPort := by
  obtain ⟨_, _, _, _, _, _, _, h⟩ := s.acknowledge_eq a; rw [h]
@[simp] theorem State.acknowledge_partFrame (s : State) (a : Seq) : (s.acknowledge a).partFrame = s.partFrame := by
  obtain ⟨_, _, _, _, _, _, _, h⟩ := s.acknowledge_eq a; rw [h]
@[simp] theorem State.acknowledge_losses (s : State) (a : Seq) : (s.acknowledge a).losses = s.losses := by
  obtain ⟨_, _, _, _, _, _, _, h⟩ := s.acknowledge_eq a; rw [h]
@[simp] theorem State.acknowledge_seeking (s : State) (a : Seq) : (s.acknowledge a).seeking = s.seeking := by
  obtain ⟨_, _, _, _, _, _, _, h⟩ := s.acknowledge_eq a; rw [h]
@[simp] theorem State.acknowledge_trunk (s : State) (a : Seq) : (s.acknowledge a).trunk = s.trunk := by
  obtain ⟨_, _, _, _, _, _, _, h⟩ := s.acknowledge_eq a; rw [h]
@[simp] theorem State.acknowledge_lastLoss (s : State) (a : Seq) : (s.acknowledge a).lastLoss = s.lastLoss := by
  obtain ⟨_, _, _, _, _, _, _, h⟩ := s.acknowledge_eq a; rw [h]
@[simp] theorem State.acknowledge_sessions (s : State) (a : Seq) : (s.acknowledge a).sessions = s.sessions := by
  obtain ⟨_, _, _, _, _, _, _, h⟩ := s.acknowledge_eq a; rw [h]
@[simp] theorem State.acknowledge_expectedSeq (s : State) (a : Seq) : (s.acknowledge a).expectedSeq = s.expectedSeq := by
  obtain ⟨_, _, _, _, _, _, _, h⟩ := s.acknowledge_eq a; rw [h]
@[simp] theorem State.acknowledge_silenceCount (s : State) (a : Seq) : (s.acknowledge a).silenceCount = s.silenceCount := by
  obtain ⟨_, _, _, _, _, _, _, h⟩ := s.acknowledge_eq a; rw [h]
@[simp] theorem State.acknowledge_badFrames (s : State) (a : Seq) : (s.acknowledge a).badFrames = s.badFrames := by
  obtain ⟨_, _, _, _, _, _, _, h⟩ := s.acknowledge_eq a; rw [h]
@[simp] theorem State.acknowledge_retransmissions (s : State) (a : Seq) : (s.acknowledge a).retransmissions = s.retransmissions := by
  obtain ⟨_, _, _, _, _, _, _, h⟩ := s.acknowledge_eq a; rw [h]
@[simp] theorem State.acknowledge_peerHeard (s : State) (a : Seq) : (s.acknowledge a).peerHeard = s.peerHeard := by
  obtain ⟨_, _, _, _, _, _, _, h⟩ := s.acknowledge_eq a; rw [h]
@[simp] theorem State.acknowledge_clash (s : State) (a : Seq) : (s.acknowledge a).clash = s.clash := by
  obtain ⟨_, _, _, _, _, _, _, h⟩ := s.acknowledge_eq a; rw [h]
@[simp] theorem State.acknowledge_peerEnable (s : State) (a : Seq) : (s.acknowledge a).peerEnable = s.peerEnable := by
  obtain ⟨_, _, _, _, _, _, _, h⟩ := s.acknowledge_eq a; rw [h]
@[simp] theorem State.acknowledge_peerFences (s : State) (a : Seq) : (s.acknowledge a).peerFences = s.peerFences := by
  obtain ⟨_, _, _, _, _, _, _, h⟩ := s.acknowledge_eq a; rw [h]
@[simp] theorem State.acknowledge_joinMask (s : State) (a : Seq) : (s.acknowledge a).joinMask = s.joinMask := by
  obtain ⟨_, _, _, _, _, _, _, h⟩ := s.acknowledge_eq a; rw [h]
@[simp] theorem State.acknowledge_joinSent (s : State) (a : Seq) : (s.acknowledge a).joinSent = s.joinSent := by
  obtain ⟨_, _, _, _, _, _, _, h⟩ := s.acknowledge_eq a; rw [h]
@[simp] theorem State.acknowledge_fenceChanges (s : State) (a : Seq) : (s.acknowledge a).fenceChanges = s.fenceChanges := by
  obtain ⟨_, _, _, _, _, _, _, h⟩ := s.acknowledge_eq a; rw [h]
@[simp] theorem State.acknowledge_controlTimer (s : State) (a : Seq) : (s.acknowledge a).controlTimer = s.controlTimer := by
  obtain ⟨_, _, _, _, _, _, _, h⟩ := s.acknowledge_eq a; rw [h]
@[simp] theorem State.acknowledge_sending (s : State) (a : Seq) : (s.acknowledge a).sending = s.sending := by
  obtain ⟨_, _, _, _, _, _, _, h⟩ := s.acknowledge_eq a; rw [h]
@[simp] theorem State.acknowledge_ring (s : State) (a : Seq) : (s.acknowledge a).ring = s.ring := by
  obtain ⟨_, _, _, _, _, _, _, h⟩ := s.acknowledge_eq a; rw [h]
@[simp] theorem State.acknowledge_nextEntry (s : State) (a : Seq) : (s.acknowledge a).nextEntry = s.nextEntry := by
  obtain ⟨_, _, _, _, _, _, _, h⟩ := s.acknowledge_eq a; rw [h]
@[simp] theorem State.acknowledge_ports (s : State) (a : Seq) : (s.acknowledge a).ports = s.ports := by
  obtain ⟨_, _, _, _, _, _, _, h⟩ := s.acknowledge_eq a; rw [h]
@[simp] theorem State.acknowledge_scratch (s : State) (a : Seq) : (s.acknowledge a).scratch = s.scratch := by
  obtain ⟨_, _, _, _, _, _, _, h⟩ := s.acknowledge_eq a; rw [h]
@[simp] theorem State.acknowledge_pending (s : State) (a : Seq) : (s.acknowledge a).pending = s.pending := by
  obtain ⟨_, _, _, _, _, _, _, h⟩ := s.acknowledge_eq a; rw [h]

/-! #### notify -/

@[simp] theorem State.notify_side (s : State) (h : PortId) (n : Notice) : (s.notify h n).side = s.side := by
  obtain ⟨_, h⟩ := s.notify_eq h n; rw [h]
@[simp] theorem State.notify_loading (s : State) (h : PortId) (n : Notice) : (s.notify h n).loading = s.loading := by
  obtain ⟨_, h⟩ := s.notify_eq h n; rw [h]
@[simp] theorem State.notify_params (s : State) (h : PortId) (n : Notice) : (s.notify h n).params = s.params := by
  obtain ⟨_, h⟩ := s.notify_eq h n; rw [h]
@[simp] theorem State.notify_lanes (s : State) (h : PortId) (n : Notice) : (s.notify h n).lanes = s.lanes := by
  obtain ⟨_, h⟩ := s.notify_eq h n; rw [h]
@[simp] theorem State.notify_pool (s : State) (h : PortId) (n : Notice) : (s.notify h n).pool = s.pool := by
  obtain ⟨_, h⟩ := s.notify_eq h n; rw [h]
@[simp] theorem State.notify_slots (s : State) (h : PortId) (n : Notice) : (s.notify h n).slots = s.slots := by
  obtain ⟨_, h⟩ := s.notify_eq h n; rw [h]
@[simp] theorem State.notify_queue (s : State) (h : PortId) (n : Notice) : (s.notify h n).queue = s.queue := by
  obtain ⟨_, h⟩ := s.notify_eq h n; rw [h]
@[simp] theorem State.notify_arrivals (s : State) (h : PortId) (n : Notice) : (s.notify h n).arrivals = s.arrivals := by
  obtain ⟨_, h⟩ := s.notify_eq h n; rw [h]
@[simp] theorem State.notify_units (s : State) (h : PortId) (n : Notice) : (s.notify h n).units = s.units := by
  obtain ⟨_, h⟩ := s.notify_eq h n; rw [h]
@[simp] theorem State.notify_dwellQueue (s : State) (h : PortId) (n : Notice) : (s.notify h n).dwellQueue = s.dwellQueue := by
  obtain ⟨_, h⟩ := s.notify_eq h n; rw [h]
@[simp] theorem State.notify_sweepTimer (s : State) (h : PortId) (n : Notice) : (s.notify h n).sweepTimer = s.sweepTimer := by
  obtain ⟨_, h⟩ := s.notify_eq h n; rw [h]
@[simp] theorem State.notify_sweepCount (s : State) (h : PortId) (n : Notice) : (s.notify h n).sweepCount = s.sweepCount := by
  obtain ⟨_, h⟩ := s.notify_eq h n; rw [h]
@[simp] theorem State.notify_configPort (s : State) (h : PortId) (n : Notice) : (s.notify h n).configPort = s.configPort := by
  obtain ⟨_, h⟩ := s.notify_eq h n; rw [h]
@[simp] theorem State.notify_partFrame (s : State) (h : PortId) (n : Notice) : (s.notify h n).partFrame = s.partFrame := by
  obtain ⟨_, h⟩ := s.notify_eq h n; rw [h]
@[simp] theorem State.notify_losses (s : State) (h : PortId) (n : Notice) : (s.notify h n).losses = s.losses := by
  obtain ⟨_, h⟩ := s.notify_eq h n; rw [h]
@[simp] theorem State.notify_seeking (s : State) (h : PortId) (n : Notice) : (s.notify h n).seeking = s.seeking := by
  obtain ⟨_, h⟩ := s.notify_eq h n; rw [h]
@[simp] theorem State.notify_trunk (s : State) (h : PortId) (n : Notice) : (s.notify h n).trunk = s.trunk := by
  obtain ⟨_, h⟩ := s.notify_eq h n; rw [h]
@[simp] theorem State.notify_lastLoss (s : State) (h : PortId) (n : Notice) : (s.notify h n).lastLoss = s.lastLoss := by
  obtain ⟨_, h⟩ := s.notify_eq h n; rw [h]
@[simp] theorem State.notify_sessions (s : State) (h : PortId) (n : Notice) : (s.notify h n).sessions = s.sessions := by
  obtain ⟨_, h⟩ := s.notify_eq h n; rw [h]
@[simp] theorem State.notify_sendQueue (s : State) (h : PortId) (n : Notice) : (s.notify h n).sendQueue = s.sendQueue := by
  obtain ⟨_, h⟩ := s.notify_eq h n; rw [h]
@[simp] theorem State.notify_outstanding (s : State) (h : PortId) (n : Notice) : (s.notify h n).outstanding = s.outstanding := by
  obtain ⟨_, h⟩ := s.notify_eq h n; rw [h]
@[simp] theorem State.notify_nextSeq (s : State) (h : PortId) (n : Notice) : (s.notify h n).nextSeq = s.nextSeq := by
  obtain ⟨_, h⟩ := s.notify_eq h n; rw [h]
@[simp] theorem State.notify_expectedSeq (s : State) (h : PortId) (n : Notice) : (s.notify h n).expectedSeq = s.expectedSeq := by
  obtain ⟨_, h⟩ := s.notify_eq h n; rw [h]
@[simp] theorem State.notify_mark (s : State) (h : PortId) (n : Notice) : (s.notify h n).mark = s.mark := by
  obtain ⟨_, h⟩ := s.notify_eq h n; rw [h]
@[simp] theorem State.notify_retryCount (s : State) (h : PortId) (n : Notice) : (s.notify h n).retryCount = s.retryCount := by
  obtain ⟨_, h⟩ := s.notify_eq h n; rw [h]
@[simp] theorem State.notify_silenceCount (s : State) (h : PortId) (n : Notice) : (s.notify h n).silenceCount = s.silenceCount := by
  obtain ⟨_, h⟩ := s.notify_eq h n; rw [h]
@[simp] theorem State.notify_sentSinceTick (s : State) (h : PortId) (n : Notice) : (s.notify h n).sentSinceTick = s.sentSinceTick := by
  obtain ⟨_, h⟩ := s.notify_eq h n; rw [h]
@[simp] theorem State.notify_badFrames (s : State) (h : PortId) (n : Notice) : (s.notify h n).badFrames = s.badFrames := by
  obtain ⟨_, h⟩ := s.notify_eq h n; rw [h]
@[simp] theorem State.notify_retransmissions (s : State) (h : PortId) (n : Notice) : (s.notify h n).retransmissions = s.retransmissions := by
  obtain ⟨_, h⟩ := s.notify_eq h n; rw [h]
@[simp] theorem State.notify_peerHeard (s : State) (h : PortId) (n : Notice) : (s.notify h n).peerHeard = s.peerHeard := by
  obtain ⟨_, h⟩ := s.notify_eq h n; rw [h]
@[simp] theorem State.notify_clash (s : State) (h : PortId) (n : Notice) : (s.notify h n).clash = s.clash := by
  obtain ⟨_, h⟩ := s.notify_eq h n; rw [h]
@[simp] theorem State.notify_peerEnable (s : State) (h : PortId) (n : Notice) : (s.notify h n).peerEnable = s.peerEnable := by
  obtain ⟨_, h⟩ := s.notify_eq h n; rw [h]
@[simp] theorem State.notify_peerFences (s : State) (h : PortId) (n : Notice) : (s.notify h n).peerFences = s.peerFences := by
  obtain ⟨_, h⟩ := s.notify_eq h n; rw [h]
@[simp] theorem State.notify_joinMask (s : State) (h : PortId) (n : Notice) : (s.notify h n).joinMask = s.joinMask := by
  obtain ⟨_, h⟩ := s.notify_eq h n; rw [h]
@[simp] theorem State.notify_joinSent (s : State) (h : PortId) (n : Notice) : (s.notify h n).joinSent = s.joinSent := by
  obtain ⟨_, h⟩ := s.notify_eq h n; rw [h]
@[simp] theorem State.notify_fenceChanges (s : State) (h : PortId) (n : Notice) : (s.notify h n).fenceChanges = s.fenceChanges := by
  obtain ⟨_, h⟩ := s.notify_eq h n; rw [h]
@[simp] theorem State.notify_controlTimer (s : State) (h : PortId) (n : Notice) : (s.notify h n).controlTimer = s.controlTimer := by
  obtain ⟨_, h⟩ := s.notify_eq h n; rw [h]
@[simp] theorem State.notify_txFrames (s : State) (h : PortId) (n : Notice) : (s.notify h n).txFrames = s.txFrames := by
  obtain ⟨_, h⟩ := s.notify_eq h n; rw [h]
@[simp] theorem State.notify_sending (s : State) (h : PortId) (n : Notice) : (s.notify h n).sending = s.sending := by
  obtain ⟨_, h⟩ := s.notify_eq h n; rw [h]
@[simp] theorem State.notify_ring (s : State) (h : PortId) (n : Notice) : (s.notify h n).ring = s.ring := by
  obtain ⟨_, h⟩ := s.notify_eq h n; rw [h]
@[simp] theorem State.notify_nextEntry (s : State) (h : PortId) (n : Notice) : (s.notify h n).nextEntry = s.nextEntry := by
  obtain ⟨_, h⟩ := s.notify_eq h n; rw [h]
@[simp] theorem State.notify_scratch (s : State) (h : PortId) (n : Notice) : (s.notify h n).scratch = s.scratch := by
  obtain ⟨_, h⟩ := s.notify_eq h n; rw [h]
@[simp] theorem State.notify_pending (s : State) (h : PortId) (n : Notice) : (s.notify h n).pending = s.pending := by
  obtain ⟨_, h⟩ := s.notify_eq h n; rw [h]

@[simp] theorem State.notify_lane (s : State) (h : PortId) (n : Notice) (i : LaneId) :
    (s.notify h n).lane i = s.lane i := by
  simp [State.lane]

@[simp] theorem State.send_lane (s : State) (m : Msg) (i : LaneId) : (s.send m).lane i = s.lane i := by
  simp [State.lane]

@[simp] theorem State.acknowledge_lane (s : State) (a : Seq) (i : LaneId) : (s.acknowledge a).lane i = s.lane i := by
  simp [State.lane]

@[simp] theorem State.notify_circuit (s : State) (h : PortId) (n : Notice) (c : SlotId) :
    (s.notify h n).circuit c = s.circuit c := by
  simp [State.circuit]

@[simp] theorem State.send_circuit (s : State) (m : Msg) (c : SlotId) : (s.send m).circuit c = s.circuit c := by
  simp [State.circuit]

/-! ### Requests and transactions -/

/-- R154: the reply to a request that a port holds. -/
theorem State.reply_of_asks {s : State} {h : PortId} {k : ReqKind} {tag : Byte} {ps : List Byte} (a : s.Asks h k tag ps)
    (st : Status) (rs : List Byte) : s.reply h st rs = s.answered h k tag st rs := by
  have a : (s.ports.get h).link = .working ⟨k, tag, ps⟩ := a
  simp [State.reply, State.answered, State.modPort, State.port, a]

/-- The owner takes a request of its kind with the parameters it carries. -/
theorem State.takeRequest_of_asks {s : State} {h : PortId} {k : ReqKind} {tag : Byte} {ps : List Byte}
    (a : s.Asks h k tag ps) (act : List Byte → State) : s.takeRequest h k act = act ps := by
  simp [State.takeRequest, State.request, a]

/-- R149: a transaction of this command byte ends: its effect, or none where it is void. -/
theorem State.endTransaction_of (s : State) (h : PortId) (code : Byte) (n : Nat)
    (frame : Port → Transaction → List Byte) (act : Port → Transaction → Port) (t : Transaction)
    (e : (s.port h).transaction = some t) (c : t.code = code) :
    s.endTransaction h code n frame act = s.modPort h fun p =>
      { (if t.void then p else act p t) with
        transaction := none
        shiftOut := p.shiftOut ++ t.out (frame p t) n } := by
  simp [State.endTransaction, e, c]

/-- Two changes of one port record that agree on it are one change. -/
theorem State.modPort_congr (s : State) (h : PortId) {f g : Port → Port} (e : f (s.port h) = g (s.port h)) :
    s.modPort h f = s.modPort h g := by
  unfold State.modPort; rw [e]

/-! ### Lane moves -/

theorem State.lane_moveLane (s : State) (i j : LaneId) (st : LaneState) :
    (s.moveLane i st).lane j = if j = i then (s.lane i).enter st else s.lane j :=
  s.lane_modLane i j (Lane.enter st)

theorem State.pool_moveLane (s : State) (i : LaneId) (st : LaneState) :
    (s.moveLane i st).pool = s.pool.filter fun j => decide (j ≠ i) := rfl

theorem State.dwellQueue_moveLane (s : State) (i : LaneId) (st : LaneState) :
    (s.moveLane i st).dwellQueue = s.dwellQueue.filter fun d => decide (d.lane ≠ i) := rfl

theorem State.lane_freeLane (e : PoolEnd) (s : State) (i j : LaneId) :
    (State.freeLane e s i).lane j =
      if j = i then { ((s.lane i).enter .free).clearPlace with failure := none } else s.lane j :=
  s.lane_modLane i j fun l => { (l.enter .free).clearPlace with failure := none }

theorem State.pool_freeLane (e : PoolEnd) (s : State) (i : LaneId) :
    (State.freeLane e s i).pool =
      match e with
      | .head => i :: s.pool.filter fun j => decide (j ≠ i)
      | .tail => (s.pool.filter fun j => decide (j ≠ i)) ++ [i] := rfl

theorem State.lane_quarantine (s : State) (i j : LaneId) :
    (s.quarantine i).lane j = if j = i then (s.lane i).clearPlace.enter .quarantined else s.lane j := by
  unfold State.quarantine
  rw [State.lane_moveLane, State.lane_modLane, State.lane_modLane]
  split <;> simp

theorem State.pool_quarantine (s : State) (i : LaneId) :
    (s.quarantine i).pool = s.pool.filter fun j => decide (j ≠ i) := rfl

theorem State.lane_takeLane (s : State) (i j : LaneId) (st : LaneState) (pl : Place) :
    (s.takeLane i st pl).lane j =
      if j = i then { (s.lane i).enter st with place := some pl, peerTrained := false } else s.lane j := by
  unfold State.takeLane
  rw [State.lane_modLane, State.lane_moveLane, State.lane_moveLane]
  split <;> simp

theorem State.pool_takeLane (s : State) (i : LaneId) (st : LaneState) (pl : Place) :
    (s.takeLane i st pl).pool = s.pool.filter fun j => decide (j ≠ i) := rfl

theorem State.lane_setPeerFence (s : State) (i j : LaneId) :
    (s.setPeerFence i).lane j = if j = i then { s.lane i with peerFence := true } else s.lane j :=
  s.lane_modLane i j fun l => { l with peerFence := true }

/-- R5: the pool's form depends on the pool and on the lanes' states alone. -/
theorem State.PoolMatches.congr {s t : State} (h : s.PoolMatches) (p : t.pool = s.pool)
    (l : ∀ i, (t.lane i).state = (s.lane i).state) : t.PoolMatches :=
  ⟨p ▸ h.1, fun i => by rw [p, l i]; exact h.2 i⟩

theorem State.poolMatches_moveLane (s : State) (i : LaneId) (st : LaneState) (ne : st ≠ .free) (h : s.PoolMatches) :
    (s.moveLane i st).PoolMatches := by
  refine ⟨h.1.filter _, fun j => ?_⟩
  rw [State.lane_moveLane, State.pool_moveLane, List.mem_filter]
  by_cases e : j = i
  · subst e; simp [Lane.enter, ne]
  · simp [e, h.2 j]

theorem State.poolMatches_freeLane (e : PoolEnd) (s : State) (i : LaneId) (h : s.PoolMatches) :
    (State.freeLane e s i).PoolMatches := by
  have nd : (s.pool.filter fun j => decide (j ≠ i)).Nodup := h.1.filter _
  refine ⟨?_, fun j => ?_⟩
  · rw [State.pool_freeLane]
    cases e
    · exact List.nodup_cons.mpr ⟨by simp, nd⟩
    · refine List.nodup_append.mpr ⟨nd, by simp, ?_⟩
      rintro a ha b hb rfl
      simp at ha hb
      exact ha.2 hb
  · rw [State.lane_freeLane, State.pool_freeLane]
    by_cases k : j = i
    · subst k; cases e <;> simp [Lane.clearPlace, Lane.enter]
    · cases e <;> simp [k, h.2 j]

theorem State.poolMatches_modLane (s : State) (i : LaneId) (f : Lane → Lane) (hf : ∀ l, (f l).state = l.state)
    (h : s.PoolMatches) : (s.modLane i f).PoolMatches := by
  refine h.congr rfl fun j => ?_
  rw [State.lane_modLane]
  split
  · rename_i e; rw [hf, e]
  · rfl

theorem State.poolMatches_quarantine (s : State) (i : LaneId) (h : s.PoolMatches) : (s.quarantine i).PoolMatches :=
  State.poolMatches_moveLane _ i _ (by decide) (s.poolMatches_modLane i Lane.clearPlace (fun _ => rfl) h)

theorem State.poolMatches_takeLane (s : State) (i : LaneId) (st : LaneState) (pl : Place) (ne : st ≠ .free)
    (h : s.PoolMatches) : (s.takeLane i st pl).PoolMatches :=
  State.poolMatches_modLane _ i _ (fun _ => rfl) (s.poolMatches_moveLane i st ne h)

/-! ### Dwells (R69, R71, R72) -/

/-- R76: a lane's run number may move once the lane has no request queued. -/
theorem State.dwellsCurrent_cancel (s : State) (i : LaneId) (f : Lane → Lane) (h : s.DwellsCurrent) :
    ((s.modLane i f).cancelDwell i).DwellsCurrent := by
  obtain ⟨nd, cur⟩ := h
  refine ⟨nd.sublist (List.filter_sublist.map _), fun d hd => ?_⟩
  obtain ⟨hd, ne⟩ := List.mem_filter.mp hd
  have ne : d.lane ≠ i := by simpa using ne
  change d.run = ((s.modLane i f).lane d.lane).run
  rw [State.lane_modLane, if_neg ne]
  exact cur d hd

theorem State.DwellsCurrent.congr {s t : State} (h : s.DwellsCurrent) (q : t.dwellQueue = s.dwellQueue)
    (l : ∀ i, (t.lane i).run = (s.lane i).run) : t.DwellsCurrent :=
  ⟨q ▸ h.1, fun d hd => by rw [l]; exact h.2 d (q ▸ hd)⟩

theorem State.dwellsCurrent_moveLane (s : State) (i : LaneId) (st : LaneState) (h : s.DwellsCurrent) :
    (s.moveLane i st).DwellsCurrent :=
  (s.dwellsCurrent_cancel i (Lane.enter st) h).congr rfl fun _ => rfl

theorem State.dwellsCurrent_freeLane (e : PoolEnd) (s : State) (i : LaneId) (h : s.DwellsCurrent) :
    (State.freeLane e s i).DwellsCurrent :=
  (s.dwellsCurrent_cancel i (fun l => { (l.enter .free).clearPlace with failure := none }) h).congr rfl fun _ => rfl

theorem State.dwellsCurrent_modLane (s : State) (i : LaneId) (f : Lane → Lane) (hf : ∀ l, (f l).run = l.run)
    (h : s.DwellsCurrent) : (s.modLane i f).DwellsCurrent := by
  refine h.congr rfl fun j => ?_
  rw [State.lane_modLane]
  split
  · rename_i e; rw [hf, e]
  · rfl

theorem State.dwellsCurrent_requestDwell (s : State) (i : LaneId) (p : Purpose) (h : s.DwellsCurrent) :
    (s.requestDwell i p).DwellsCurrent := by
  unfold State.requestDwell
  split
  · exact h
  · rename_i c
    obtain ⟨nd, cur⟩ := h
    have no : ∀ d ∈ s.dwellQueue, d.lane ≠ i := by simpa [State.dwellQueued] using c
    refine ⟨?_, fun d hd => ?_⟩
    · change ((s.dwellQueue ++ [Dwell.mk i p (s.lane i).run]).map Dwell.lane).Nodup
      rw [List.map_append, List.nodup_append]
      refine ⟨nd, by simp, ?_⟩
      rintro a ha b hb rfl
      obtain ⟨d, hd, rfl⟩ := List.mem_map.mp ha
      simp at hb
      exact no d hd hb
    · rcases List.mem_append.mp hd with hd | hd
      · exact cur d hd
      · rw [List.mem_singleton.mp hd]; rfl

/-- After a request the lane has one in the queue. -/
theorem State.dwellQueued_requestDwell (s : State) (i : LaneId) (p : Purpose) :
    (s.requestDwell i p).dwellQueued i = true := by
  unfold State.requestDwell
  split
  · assumption
  · simp [State.dwellQueued, State.grantDue]

/-- R72: what one grant does. -/
theorem State.grantOne_spec {s t : State} (h : s.grantOne = some t) :
    ∃ u d, s.unit u = none ∧ d ∈ s.dwellQueue ∧ s.laneBusy d.lane = false
      ∧ t = { s with dwellQueue := s.dwellQueue.erase d, units := s.units.set u (some d) }.beginDwell d := by
  unfold State.grantOne at h
  split at h
  · rename_i u d hu hd
    have hu : s.unit u = none := by
      have := List.find?_some hu
      simpa using this
    have hd : d ∈ s.dwellQueue ∧ s.laneBusy d.lane = false := by
      unfold State.grantable at hd
      split at hd
      · rename_i e k
        cases hd
        have := List.find?_some k
        exact ⟨List.mem_of_find?_eq_some k, by simpa using (of_decide_eq_true this).2⟩
      · have := List.find?_some hd
        exact ⟨List.mem_of_find?_eq_some hd, by simpa using (of_decide_eq_true this).2⟩
    cases h
    exact ⟨u, d, hu, hd.1, hd.2, rfl⟩
  · cases h

/-! ### The end of an event -/

/-- R58: no entry waits, so that a service scan serves none. -/
theorem State.scan_of_nobody (s : State) (h : ∀ e ∈ s.queue, e.slot ≠ none) : s.scan = s := by
  have turn : ∀ k n, State.scanTurn k s n = s := by
    intro k n
    unfold State.scanTurn
    split
    · rename_i e c he _
      rw [if_neg]
      rintro ⟨_, w, _⟩
      exact h e (List.mem_of_getElem? he) w
    · rfl
  have pass : ∀ k (l : List Nat), l.foldl (State.scanTurn k) s = s := by
    intro k l
    induction l with
    | nil => rfl
    | cons n l ih => rw [List.foldl_cons, turn, ih]
  unfold State.scan
  dsimp only
  rw [pass, pass]

/-- No request is queued, so that the grant rule grants none. -/
theorem State.grant_of_empty (s : State) (h : s.dwellQueue = []) : s.grant = s := by
  have g : s.grantOne = none := by
    cases k : s.grantOne with
    | none => rfl
    | some t =>
      obtain ⟨_, d, _, m, _⟩ := State.grantOne_spec k
      rw [h] at m
      cases m
  unfold State.grant State.grantUpTo
  rw [g]

/-- The grant rule reads no mark of the event. -/
theorem State.grant_scratch (s : State) (k : Scratch) :
    State.grant { s with scratch := k } = { s.grant with scratch := k } := by
  have one : ∀ t : State, State.grantOne { t with scratch := k } = t.grantOne.map fun u => { u with scratch := k } := by
    intro t
    have a : State.idleUnit { t with scratch := k } = t.idleUnit := rfl
    have b : State.grantable { t with scratch := k } = t.grantable := rfl
    unfold State.grantOne
    rw [a, b]
    split
    · rename_i u d _ _
      unfold State.beginDwell
      cases d.purpose <;> rfl
    · rfl
  have all : ∀ n (t : State), State.grantUpTo n { t with scratch := k } = { State.grantUpTo n t with scratch := k } := by
    intro n
    induction n with
    | zero => intro t; rfl
    | succ n ih =>
      intro t
      unfold State.grantUpTo
      rw [one t]
      cases t.grantOne with
      | none => rfl
      | some u => exact ih u
  exact all 4 s

/-- A state whose marks are clear is itself with its marks clear. -/
theorem State.clear_of_unmarked (s : State) (h : s.Unmarked) : { s with scratch := {} } = s := by
  rw [← h]

/-- The end of an event that marked no loss while nobody waits: the grant rule alone has work. -/
theorem State.finish_of_quiet (s : State) (h : s.NobodyWaits) (o : s.scratch.overflow = false) :
    s.finish = { (if s.scratch.grant then s.grant else s) with scratch := {} } := by
  have growth : ∃ k : Scratch, s.reportGrowth = { s with scratch := k } ∧ k.grant = s.scratch.grant ∧ k.overflow = false := by
    unfold State.reportGrowth
    split
    · have e : ∀ t : State, t.seeking = [] → State.serveSeeking 0 t = t := fun _ _ => rfl
      rw [h.1]
      exact ⟨_, rfl, rfl, o⟩
    · exact ⟨s.scratch, rfl, rfl, o⟩
  obtain ⟨k, hk, g, v⟩ := growth
  have scan : State.scan { s with scratch := k } = { s with scratch := k } := State.scan_of_nobody _ h.2
  unfold State.finish
  rw [hk]
  dsimp only
  rw [scan, ite_self]
  dsimp only
  rw [g]
  split
  · rw [State.grant_scratch]
    simp [State.overflowLoss, v]
  · simp [State.overflowLoss, v]

/-- The end of an event that marked nothing. -/
@[simp] theorem State.finish_of_unmarked (s : State) (h : s.Unmarked) : s.finish = s := by
  unfold State.finish State.reportGrowth State.overflowLoss
  simp [h, State.clear_of_unmarked s h]

/-- R75: a unit that has become idle while no request is queued and nobody waits. -/
theorem State.finish_of_idle (s : State) (h : s.NobodyWaits) (o : s.scratch.overflow = false) (q : s.dwellQueue = []) :
    s.finish = { s with scratch := {} } := by
  rw [State.finish_of_quiet s h o, State.grant_of_empty s q, ite_self]

end Sys2Proof.Machine
end

