-- ==== Sys2Proof/Laws/Kept.lean ====
section
/-! SUPPORT. Sys2Proof/Laws/Kept.lean: the induction over the blocks' shared work, packaged once. A property of states
that the primitive updates keep is kept by every shared operation, up to the trunk's loss, the end of an event, and what
the owner of each message, request and result does. -/

namespace Sys2Proof.Machine

open Sys2Proof

/-- A property that every primitive update of the shared work keeps. -/
structure Kept (P : State → Prop) : Prop where
  /-- Fields that no form of the machine speaks of. -/
  rest : ∀ (s : State) (slots : Table 16 Slot) (queue : List Entry) (seeking : List (SlotId × Nat)) (trunk : TrunkState)
    (lastLoss : Option LossReason) (mark : Bool) (retryCount silenceCount : Nat) (sentSinceTick : Bool)
    (fenceChanges : List LaneId) (txFrames : List Frame) (sending : Option Frame) (scratch : Scratch), P s →
    P { s with
      slots := slots, queue := queue, seeking := seeking, trunk := trunk, lastLoss := lastLoss, mark := mark,
      retryCount := retryCount, silenceCount := silenceCount, sentSinceTick := sentSinceTick,
      fenceChanges := fenceChanges, txFrames := txFrames, sending := sending, scratch := scratch }
  /-- R130: a message joins a send queue that has room. -/
  place : ∀ (s : State) (m : Msg), s.sendQueue.length < Config.sendCapacity → P s →
    P { s with sendQueue := s.sendQueue ++ [m] }
  /-- R131: the oldest message goes out while the window is open. -/
  out : ∀ (s : State) (m : Msg) (rest : List Msg), s.sendQueue = m :: rest → s.outstanding.length < Config.window →
    P s → P { s with
      sendQueue := rest, outstanding := s.outstanding ++ [(s.nextSeq, m)], nextSeq := s.nextSeq + 1 }
  /-- R133: the oldest messages are acknowledged. -/
  passed : ∀ (s : State) (n : Nat), n ≤ s.outstanding.length → P s → P { s with outstanding := s.outstanding.drop n }
  /-- R144: the channel's messages are dropped. -/
  dropped : ∀ s : State, P s → P { s with sendQueue := [], outstanding := [] }
  /-- R144: what the loss notes of the frame that is arriving. -/
  part : ∀ (s : State) (b : Bool) (n : Nat), P s → P { s with partFrame := b, losses := n }
  log : ∀ (s : State) (k : LogKind) (l : Option LaneId) (t : Option Tag) (d : Half), P s → P (s.log k l t d)
  notify : ∀ (s : State) (h : PortId) (n : Notice), P s → P (s.notify h n)
  /-- A lane's record, but for its state, run number, last good preset and missed sweeps. -/
  lane : ∀ (s : State) (i : LaneId) (f : Lane → Lane),
    (∀ l, (f l).state = l.state ∧ (f l).run = l.run ∧ (f l).lastGood = l.lastGood ∧ (f l).missed = l.missed) → P s →
    P (s.modLane i f)
  moveLane : ∀ (s : State) (i : LaneId) (st : LaneState), st ≠ .free → P s → P (s.moveLane i st)
  freeLane : ∀ (e : PoolEnd) (s : State) (i : LaneId), P s → P (State.freeLane e s i)
  /-- R89: the run number advances by itself. -/
  rerun : ∀ (s : State) (i : LaneId), P s → P ((s.modLane i fun l => { l with run := l.run + 1 }).cancelDwell i)
  requestDwell : ∀ (s : State) (i : LaneId) (p : Purpose), P s → P (s.requestDwell i p)
  grantOne : ∀ s t : State, s.grantOne = some t → P s → P t
  /-- R20, R78: every lane OFFLINE, the pool and the dwell queue empty. -/
  lanesOffline : ∀ s : State, P s → P { s with lanes := s.lanes.map Lane.atLoss, pool := [], dwellQueue := [] }

variable {P : State → Prop} {s : State}

namespace Kept

theorem foldl (_ : Kept P) {α : Type} (f : State → α → State) (hf : ∀ s a, P s → P (f s a)) (l : List α) (h : P s) :
    P (l.foldl f s) := by
  induction l generalizing s with
  | nil => exact h
  | cons a l ih => exact ih (hf s a h)

/-! ### Updates of one field or two -/

theorem slots (k : Kept P) (h : P s) (x : Table 16 Slot) : P { s with slots := x } :=
  k.rest s x _ _ _ _ _ _ _ _ _ _ _ _ h

theorem queue (k : Kept P) (h : P s) (x : List Entry) : P { s with queue := x } :=
  k.rest s _ x _ _ _ _ _ _ _ _ _ _ _ h

theorem seeking (k : Kept P) (h : P s) (x : List (SlotId × Nat)) : P { s with seeking := x } :=
  k.rest s _ _ x _ _ _ _ _ _ _ _ _ _ h

theorem fenceChanges (k : Kept P) (h : P s) (x : List LaneId) : P { s with fenceChanges := x } :=
  k.rest s _ _ _ _ _ _ _ _ _ x _ _ _ h

theorem scratch (k : Kept P) (h : P s) (x : Scratch) : P { s with scratch := x } :=
  k.rest s _ _ _ _ _ _ _ _ _ _ _ _ x h

theorem setCircuit (k : Kept P) (h : P s) (c : SlotId) (x : Circuit) : P (s.setCircuit c x) := k.slots h _

theorem modCircuit (k : Kept P) (h : P s) (c : SlotId) (f : Circuit → Circuit) : P (s.modCircuit c f) := by
  unfold State.modCircuit
  split
  · exact h
  · exact k.setCircuit h c _

theorem modPosition (k : Kept P) (h : P s) (c : SlotId) (p : Nat) (f : Position → Position) : P (s.modPosition c p f) :=
  k.modCircuit h c _

theorem notifyAll (k : Kept P) (h : P s) (n : Notice) : P (s.notifyAll n) :=
  k.foldl _ (fun s g => k.notify s g n) _ h

theorem notifyOpt (k : Kept P) (h : P s) (g : PortId) (n : Option Notice) : P (s.notifyOpt g n) := by
  unfold State.notifyOpt
  split
  · exact h
  · exact k.notify s g _ h

/-! ### Transmitter and send queue -/

theorem hand (k : Kept P) (h : P s) (q : Seq) (b : Body) : P (s.hand q b) :=
  k.rest s _ _ _ _ _ _ _ _ true _ _ _ _ h

theorem dropFrames (k : Kept P) (h : P s) (qs : List Seq) : P (s.dropFrames qs) :=
  k.rest s _ _ _ _ _ _ _ _ _ _ _ _ _ h

theorem transmit (k : Kept P) (n : Nat) (h : P s) : P (State.transmit n s) := by
  induction n generalizing s with
  | zero => exact h
  | succ n ih =>
    unfold State.transmit
    split
    · exact h
    · split
      · exact ih (k.hand (k.out s _ _ ‹_› ‹_› h) _ _)
      · exact h

theorem send (k : Kept P) (h : P s) (m : Msg) : P (s.send m) := by
  unfold State.send
  split
  · exact h
  split
  · exact h
  split
  · exact k.scratch h _
  · exact k.transmit _ (k.place s m (Nat.lt_of_not_le ‹_›) h)

theorem acknowledge (k : Kept P) (h : P s) (a : Seq) : P (s.acknowledge a) := by
  unfold State.acknowledge
  split
  · exact h
  · dsimp only
    split
    · rename_i c
      refine k.transmit _ ?_
      exact k.rest _ _ _ _ _ _ false 0 _ _ _ _ _ _ (k.passed (s.dropFrames _) _ c.2 (k.dropFrames h _))
    · exact h

/-! ### Lanes and fences -/

theorem quarantine (k : Kept P) (h : P s) (i : LaneId) : P (s.quarantine i) :=
  k.moveLane _ i _ (by decide) (k.lane s i Lane.clearPlace (fun _ => ⟨rfl, rfl, rfl, rfl⟩) h)

theorem takeLane (k : Kept P) (h : P s) (i : LaneId) (st : LaneState) (ne : st ≠ .free) (pl : Place) :
    P (s.takeLane i st pl) :=
  k.lane _ i _ (fun _ => ⟨rfl, rfl, rfl, rfl⟩) (k.moveLane s i st ne h)

theorem setPeerFence (k : Kept P) (h : P s) (i : LaneId) : P (s.setPeerFence i) :=
  k.lane s i _ (fun _ => ⟨rfl, rfl, rfl, rfl⟩) h

theorem noteFenceChange (k : Kept P) (h : P s) (i : LaneId) : P (s.noteFenceChange i) := by
  unfold State.noteFenceChange
  split
  · exact k.fenceChanges h _
  · exact h

theorem logFence (k : Kept P) (h : P s) (i : LaneId) (t : Option Tag) (c : FenceCause) : P (s.logFence i t c) := by
  unfold State.logFence
  split <;> exact k.log s _ _ _ _ h

theorem setLocalFence (k : Kept P) (h : P s) (i : LaneId) (t : Option Tag) (c : FenceCause) :
    P (s.setLocalFence i t c) := by
  have g := k.logFence (k.send (k.noteFenceChange
    (k.lane s i (Lane.fenceLocally s.params) (fun _ => ⟨rfl, rfl, rfl, rfl⟩) h) i)
    (.fence (byteOf i.val) c.reason)) i t c
  unfold State.setLocalFence
  dsimp only
  split
  · exact k.log _ _ _ _ _ g
  · exact g

theorem clearLocalFence (k : Kept P) (h : P s) (i : LaneId) : P (s.clearLocalFence i) :=
  k.send (k.noteFenceChange
    (k.lane s i (fun l => { l with localFence := false, age := none }) (fun _ => ⟨rfl, rfl, rfl, rfl⟩) h) i) _

theorem unname (k : Kept P) (h : P s) (i : LaneId) : P (s.unname i) := by
  unfold State.unname
  split
  · exact h
  · exact k.modPosition h _ _ _

theorem leaveFenced (k : Kept P) (b : Bool) (h : P s) (i : LaneId) : P (State.leaveFenced b s i) := by
  have key : ∀ t : State, P t → P (if ((t.lane i).localFence || (t.lane i).peerFence) = true then t.quarantine i else t) := by
    intro t g
    split
    · exact k.quarantine g i
    · exact g
  unfold State.leaveFenced
  split
  · exact k.quarantine (k.setLocalFence h i _ _) i
  · cases b
    · exact key s h
    · exact key _ (k.setPeerFence h i)

theorem leaveAll (k : Kept P) (h : P s) (ls : List LaneId) (b : Bool) (e : PoolEnd) : P (s.leaveAll ls b e) := by
  have g : P (ls.foldl (State.leaveFenced b) s) := k.foldl _ (fun _ i h => k.leaveFenced b h i) ls h
  unfold State.leaveAll
  cases e with
  | tail => exact k.foldl _ (k.freeLane .tail) _ g
  | head => exact k.foldl _ (k.freeLane .head) _ g

theorem vacate (k : Kept P) (h : P s) (c : SlotId) : P (s.vacate c) :=
  k.rest s _ _ _ _ _ _ _ _ _ _ _ _ { s.scratch with scan := true } h

/-! ### Dwells -/

theorem grant (k : Kept P) (h : P s) : P s.grant := by
  have all : ∀ n (t : State), P t → P (State.grantUpTo n t) := by
    intro n
    induction n with
    | zero => intro t g; exact g
    | succ n ih =>
      intro t g
      unfold State.grantUpTo
      split
      · exact g
      · exact ih _ (k.grantOne t _ ‹_› g)
  exact all 4 s h

theorem startAttempt (k : Kept P) (h : P s) (i : LaneId) (n : Nat) : P (s.startAttempt i n) :=
  k.requestDwell _ i _ (k.lane s i _ (fun _ => ⟨rfl, rfl, rfl, rfl⟩) h)

theorem startRun (k : Kept P) (h : P s) (i : LaneId) : P (s.startRun i) :=
  k.startAttempt (k.moveLane s i _ (by decide) h) i 1

theorem takeNamed (k : Kept P) (h : P s) (i : LaneId) (pl : Place) : P (s.takeNamed i pl) :=
  k.startAttempt (k.takeLane h i _ (by decide) pl) i 1

theorem restartAttempt (k : Kept P) (h : P s) (i : LaneId) (n : Nat) : P (s.restartAttempt i n) :=
  k.startAttempt (k.rerun s i h) i n

/-! ### Circuits -/

theorem upDecision (k : Kept P) (h : P s) (c : SlotId) : P (s.upDecision c) := by
  unfold State.upDecision
  split
  · exact h
  · split
    · exact k.notify _ _ _ (k.setCircuit h c _)
    · exact h

theorem markRepairing (k : Kept P) (h : P s) (c : SlotId) : P (s.markRepairing c) := by
  unfold State.markRepairing
  split
  · exact h
  · split
    · exact k.notify _ _ _ (k.setCircuit h c _)
    · exact h

theorem settle (k : Kept P) (h : P s) (c : SlotId) : P (s.settle c) := by
  unfold State.settle
  split
  · exact h
  · split
    · exact k.notify _ _ _ (k.setCircuit h c _)
    · exact k.upDecision h c

theorem beginClose (k : Kept P) (h : P s) (c : SlotId) (r : CloseReason) : P (s.beginClose c r) := by
  unfold State.beginClose
  split
  · exact h
  · split
    · exact h
    · refine k.send (k.seeking (k.setCircuit (k.foldl _ (fun s i => k.moveLane s i _ (by decide)) _ h) c _) _) _

theorem completeClose (k : Kept P) (h : P s) (c : SlotId) : P (s.completeClose c) := by
  unfold State.completeClose
  split
  · exact h
  · exact k.vacate (k.notifyOpt (k.leaveAll h _ _ _) _ _) c

theorem endByPeer (k : Kept P) (h : P s) (c : SlotId) (r : CloseReason) : P (s.endByPeer c r) := by
  unfold State.endByPeer
  split
  · exact h
  · exact k.vacate (k.notifyOpt (k.send (k.leaveAll h _ _ _) _) _ _) c

/-! ### Repair -/

theorem dropPosition (k : Kept P) (h : P s) (c : SlotId) (p : Nat) : P (s.dropPosition c p) := by
  have key : ∀ t : State, P t →
      P ((match t.circuit c with
        | none => t
        | some x => if x.everUp then t.notify x.near (.circuitNarrowed c x.width) else t).settle c) := by
    intro t g
    refine k.settle ?_ c
    split
    · exact g
    · split
      · exact k.notify _ _ _ g
      · exact g
  unfold State.dropPosition
  split
  · exact h
  · exact key _ (k.leaveAll (k.leaveAll (k.seeking (k.modPosition h c p _) _) _ _ _) _ _ _)

theorem exhaust (k : Kept P) (h : P s) (c : SlotId) (p : Nat) : P (s.exhaust c p) := by
  unfold State.exhaust
  split
  · exact h
  · split
    · exact k.dropPosition (k.send h _) c p
    · exact k.beginClose h c _

theorem seek (k : Kept P) (h : P s) (c : SlotId) (p : Nat) : P (s.seek c p) :=
  k.seeking (k.modPosition h c p _) _

theorem propose (k : Kept P) (h : P s) (c : SlotId) (p : Nat) (t : Tag) (i : LaneId) : P (s.propose c p t i) :=
  k.send (k.modPosition (k.takeLane h i _ (by decide) _) c p _) _

theorem pick (k : Kept P) (h : P s) (c : SlotId) (p : Nat) : P (s.pick c p) := by
  unfold State.pick
  split
  · split
    · exact h
    · split
      · exact k.exhaust h c p
      · split
        · exact k.propose h c p _ _
        · exact k.seek h c p
  · exact h

theorem startRepair (k : Kept P) (h : P s) (c : SlotId) (p : Nat) : P (s.startRepair c p) := by
  unfold State.startRepair
  split
  · exact h
  · split
    · exact k.pick (k.markRepairing h c) c p
    · exact h

theorem positionLost (k : Kept P) (h : P s) (c : SlotId) (p : Nat) (w : Option FailReason) :
    P (s.positionLost c p w) := by
  unfold State.positionLost
  split
  · split
    · split
      · exact h
      · exact k.pick h c p
    · split
      · split
        · exact k.send h _
        · exact h
      · exact h
  · exact h

theorem expel (k : Kept P) (h : P s) (i : LaneId) (w : Option FailReason) : P (s.expel i w) := by
  unfold State.expel
  split
  · exact k.quarantine h i
  · exact k.positionLost (k.quarantine (k.unname h i) i) _ _ w

theorem switchover (k : Kept P) (h : P s) (c : SlotId) (p : Nat) (i : LaneId) : P (s.switchover c p i) := by
  unfold State.switchover
  split
  · exact h
  · refine k.settle (k.modCircuit (k.leaveAll (k.modPosition ?_ c p _) _ _ _) c _) c
    exact k.lane s i _ (fun _ => ⟨rfl, rfl, rfl, rfl⟩) h

theorem activate (k : Kept P) (h : P s) (i : LaneId) : P (s.activate i) := by
  unfold State.activate
  have g := k.moveLane s i .active (by decide) h
  generalize s.moveLane i .active = t at g
  dsimp only
  split
  · exact g
  · split
    · exact k.upDecision (k.modPosition g _ _ _) _
    · exact k.switchover g _ _ _

theorem laneFailed (k : Kept P) (h : P s) (i : LaneId) (r : FailReason) (pl : Place) : P (s.laneFailed i r pl) := by
  unfold State.laneFailed
  split
  · split
    · exact k.positionLost (k.leaveAll (k.unname h i) _ _ _) _ _ _
    · split
      · split
        · exact k.startRepair h _ _
        · split
          · exact k.markRepairing (k.send h _) _
          · exact h
      · exact h
  · exact h

theorem declareFailing (k : Kept P) (h : P s) (i : LaneId) (r : FailReason) (f : Byte) : P (s.declareFailing i r f) := by
  have key : ∀ t : State, P t → P (match (t.lane i).place with | none => t | some pl => t.laneFailed i r pl) := by
    intro t g
    split
    · exact g
    · exact k.laneFailed g _ _ _
  exact key _ (k.log _ _ _ _ _ (k.moveLane _ _ _ (by decide) (k.lane s i _ (fun _ => ⟨rfl, rfl, rfl, rfl⟩) h)))

/-! ### Admission -/

theorem serveInto (k : Kept P) (h : P s) (n : Nat) (e : Entry) (c : SlotId) (w : Nat) : P (s.serveInto n e c w) := by
  have take : ∀ (l : List (Nat × LaneId)) (t : State), P t →
      P (l.foldl (fun s pl => s.takeLane pl.2 .claimed ⟨c, .current, pl.1⟩) t) :=
    fun l _ g => k.foldl _ (fun _ pl g => k.takeLane g pl.2 _ (by decide) _) l g
  unfold State.serveInto
  exact k.send (k.queue (take _ _ (k.setCircuit h c _)) _) _

theorem scanTurn (k : Kept P) (cls : Cls) (h : P s) (n : Nat) : P (State.scanTurn cls s n) := by
  unfold State.scanTurn
  split
  · split
    · exact k.serveInto h n _ _ _
    · exact h
  · exact h

theorem scan (k : Kept P) (h : P s) : P s.scan :=
  k.foldl _ (fun _ n g => k.scanTurn .shared g n) _ (k.foldl _ (fun _ n g => k.scanTurn .reserved g n) _ h)

theorem dropEntries (k : Kept P) (h : P s) (f : Entry → Bool) : P (s.dropEntries f) := by
  unfold State.dropEntries
  split
  · exact k.rest s _ _ _ _ _ _ _ _ _ _ _ _ { s.scratch with scan := true } h
  · exact h

theorem returnEntry (k : Kept P) (h : P s) (e : Entry) : P (s.returnEntry e) := by
  unfold State.returnEntry
  dsimp only
  split
  · exact k.rest s _ _ _ _ _ _ _ _ _ _ _ _ { s.scratch with scan := true } h
  · exact k.notify _ _ _ (k.dropEntries h _)

theorem entryConflict (k : Kept P) (h : P s) (e : Entry) : P (s.entryConflict e) := by
  unfold State.entryConflict
  dsimp only
  split
  · exact k.notify _ _ _ (k.dropEntries h _)
  · exact k.returnEntry h _

theorem countPatience (k : Kept P) (h : P s) : P s.countPatience :=
  k.foldl _ (fun s _ => k.notify s _ _) _ (k.dropEntries (k.queue h _) _)

/-! ### The trunk's loss and the end of an event -/

theorem fenceAtLoss (k : Kept P) (h : P s) (i : LaneId) : P (s.fenceAtLoss i) := by
  unfold State.fenceAtLoss
  split
  · split
    · exact k.setLocalFence h i _ _
    · exact h
  · exact h

theorem circuitAtLoss (k : Kept P) (h : P s) (c : SlotId) : P (s.circuitAtLoss c) := by
  unfold State.circuitAtLoss
  split
  · exact h
  · exact k.vacate (k.notifyOpt h _ _) c

theorem goLost (k : Kept P) (h : P s) (r : LossReason) : P (s.goLost r) := by
  unfold State.goLost
  refine k.seeking (k.foldl _ (fun _ e g => k.returnEntry g e) _ (k.foldl _ (fun _ c g => k.circuitAtLoss g c) _ ?_)) _
  refine k.lanesOffline _ (k.foldl _ (fun _ i g => k.fenceAtLoss g i) _ (k.notifyAll (k.log _ _ _ _ _ ?_) _))
  exact k.part _ _ _ (k.rest _ _ _ _ .lost (some r) false 0 0 false _ [] none _ (k.dropped s h))

theorem serveSeeking (k : Kept P) (n : Nat) (h : P s) : P (State.serveSeeking n s) := by
  induction n generalizing s with
  | zero => exact h
  | succ n ih =>
    unfold State.serveSeeking
    split
    · exact ih (k.pick (k.modPosition (k.seeking h _) _ _ _) _ _)
    · exact h

theorem reportGrowth (k : Kept P) (h : P s) : P s.reportGrowth := by
  unfold State.reportGrowth
  split
  · exact k.scratch (k.serveSeeking _ (k.scratch h _)) _
  · exact h

theorem finish (k : Kept P) (h : P s) : P s.finish := by
  have scan : ∀ t : State, P t → P (if t.scratch.scan then t.scan else t) := by
    intro t g
    split
    · exact k.scan g
    · exact g
  have grant : ∀ t : State, P t → P (if t.scratch.grant then t.grant else t) := by
    intro t g
    split
    · exact k.grant g
    · exact g
  have loss : ∀ t : State, P t → P t.overflowLoss := by
    intro t g
    unfold State.overflowLoss
    split
    · exact k.goLost g _
    · exact g
  exact k.scratch (loss _ (grant _ (scan _ (k.reportGrowth h)))) _

/-! ### What the owners of messages do -/

theorem takeSetup (k : Kept P) (h : P s) (t : Tag) (far near : Byte) (cls : Cls) (rw mw : Byte)
    (pairs : List (Byte × Byte)) : P (s.takeSetup t far near cls rw mw pairs) := by
  have accept : ∀ (c : SlotId) (m : SetupIn), P (s.acceptSetup c t m cls rw.toNat mw.toNat) := by
    intro c m
    have named : ∀ (l : List (Nat × LaneId)) (u : State), P u →
        P (l.foldl (fun s pl => s.takeNamed pl.2 ⟨c, .current, pl.1⟩) u) :=
      fun l _ g => k.foldl _ (fun _ pl g => k.takeNamed g pl.2 _) l g
    unfold State.acceptSetup
    exact k.send (named _ _ (k.setCircuit (k.foldl _ (fun _ i g => k.unname g i) _ h) c _)) _
  unfold State.takeSetup
  split
  · exact h
  split
  · exact h
  split
  · exact k.send h _
  · exact accept _ _
  · exact h

theorem takeAccept (k : Kept P) (h : P s) (t : Tag) (b : Byte) : P (s.takeAccept t b) := by
  unfold State.takeAccept
  split
  · exact h
  split
  · unfold State.accepted
    refine k.foldl _ (fun _ p g => k.startRepair g _ p) _ (k.dropEntries (k.foldl _ (fun _ i g => k.startRun g i) _ ?_) _)
    exact k.setCircuit h _ _
  · exact h

theorem takeRefuse (k : Kept P) (h : P s) (t : Tag) (r : RefuseReason) (ls : List Byte) : P (s.takeRefuse t r ls) := by
  have entry : ∀ (u : State) (e : Entry), P u → P (u.entryRefused e r) := by
    intro u e g
    unfold State.entryRefused
    split
    · exact k.notify _ _ _ (k.dropEntries g _)
    · exact k.entryConflict g _
  unfold State.takeRefuse
  split
  · exact h
  split
  · unfold State.refused
    dsimp only
    have g := fun (c : SlotId) (x : Circuit) => k.vacate (k.leaveAll
      (k.leaveAll h (x.lanes.filter fun i => decide (i ∉ tailReturns r x.lanes ls)) false .head) (tailReturns r x.lanes ls) false .tail) c
    split
    · exact g _ _
    · exact entry _ _ (g _ _)
  · exact k.completeClose h _
  · exact h

theorem takeTrained (k : Kept P) (h : P s) (t : Tag) (b : Byte) (ok : Bool) : P (s.takeTrained t b ok) := by
  unfold State.takeTrained
  split
  · exact h
  split
  · exact h
  split
  · exact h
  · rename_i i _
    unfold State.trainedLane
    have g := k.lane s i (fun l => { l with peerTrained := true }) (fun _ => ⟨rfl, rfl, rfl, rfl⟩) h
    split
    · dsimp only
      split
      · exact k.activate g i
      · exact g
    · exact k.expel (k.setPeerFence h i) i _

theorem takeLaneFail (k : Kept P) (h : P s) (t : Tag) (b : Byte) : P (s.takeLaneFail t b) := by
  unfold State.takeLaneFail
  split
  · exact h
  split
  · exact h
  split
  · exact h
  split
  · split
    · exact h
    · unfold State.peerFailed
      dsimp only
      split
      · exact k.startRepair (k.setPeerFence h _) _ _
      · exact k.expel (k.setPeerFence h _) _ _
  · exact h

theorem acceptAmend (k : Kept P) (h : P s) (c : SlotId) (x : Circuit) (p : Nat) (q : Position) (i : LaneId) :
    P (s.acceptAmend c x p q i) := by
  have displace : ∀ u : State, P u → P (u.displace x q) := by
    intro u g
    unfold State.displace
    split
    · split
      · exact g
      · exact k.leaveAll (k.unname g _) _ _ _
    · split
      · exact g
      · exact k.leaveAll (k.unname (k.setPeerFence g _) _) _ _ _
  have first : P (if (s.lane i).state = .claimed then s.unname i else s) := by
    split
    · exact k.unname h i
    · exact h
  have g := displace _ first
  unfold State.acceptAmend
  dsimp only
  refine k.send (k.markRepairing ?_ c) _
  split
  · exact k.takeNamed (k.modPosition g c p _) i _
  · exact k.takeNamed (k.modPosition g c p _) i _

theorem takeAmend (k : Kept P) (h : P s) (t : Tag) (b : Byte) (l : Option Byte) : P (s.takeAmend t b l) := by
  unfold State.takeAmend
  split
  · exact k.send h _
  split
  · exact k.send h _
  split
  · exact h
  split
  · unfold State.amendNarrow
    split
    · exact h
    · split
      · exact h
      · exact k.dropPosition h _ _
  · unfold State.amendLane
    split
    · split
      · exact k.send h _
      · split
        · exact k.acceptAmend h _ _ _ _ _
        · exact k.send h _
    · exact k.send h _

theorem spareAccepted (k : Kept P) (h : P s) (c : SlotId) (x : Circuit) (p : Nat) (i : LaneId) :
    P (s.spareAccepted c x p i) := by
  have named : ∀ u : State, P u →
      P (u.modLane i fun l => { l with place := l.place.map fun pl => { pl with role := .current } }) :=
    fun u g => k.lane u i _ (fun _ => ⟨rfl, rfl, rfl, rfl⟩) g
  unfold State.spareAccepted
  split
  · exact k.startRun (k.modPosition h c p _) i
  · exact k.startRun (named _ (k.modPosition h c p _)) i

theorem takeAmendReply (k : Kept P) (h : P s) (t : Tag) (b : Byte) (r : AmendResult) : P (s.takeAmendReply t b r) := by
  have spare : ∀ e o, P (s.returnSpare e o) := by
    intro e o
    unfold State.returnSpare
    split
    · exact h
    · exact k.leaveAll (k.unname h _) _ _ _
  unfold State.takeAmendReply
  split
  · exact h
  split
  · exact h
  split
  · exact h
  split
  · unfold State.amendReplied
    split
    · exact k.spareAccepted h _ _ _ _
    · exact k.pick h _ _
    · exact k.pick (spare _ _) _ _
    · exact k.pick (spare _ _) _ _
    · exact k.exhaust (spare _ _) _ _
  · exact h

theorem takePeerClose (k : Kept P) (h : P s) (t : Tag) (r : CloseReason) : P (s.takePeerClose t r) := by
  unfold State.takePeerClose
  split
  · exact k.send h _
  split
  · exact k.send (k.completeClose h _) _
  · exact k.dropEntries (k.endByPeer h _ _) _
  · exact k.endByPeer h _ _

theorem takeClosed (k : Kept P) (h : P s) (t : Tag) : P (s.takeClosed t) := by
  unfold State.takeClosed
  split
  · exact h
  split
  · exact k.completeClose h _
  · exact h

theorem takeFence (k : Kept P) (h : P s) (b : Byte) : P (s.takeFence b) := by
  unfold State.takeFence
  split
  · exact h
  split
  · exact h
  · rename_i i _ _
    have g := k.setPeerFence h i
    unfold State.fencedByPeer
    dsimp only
    split
    · exact k.quarantine g i
    · exact k.expel g i _
    · exact k.expel g i _
    · exact k.expel g i _
    · exact g

theorem takeUnfence (k : Kept P) (h : P s) (b : Byte) : P (s.takeUnfence b) := by
  unfold State.takeUnfence
  split
  · exact h
  split
  · rename_i i _ _
    have g := k.lane s i (fun l => { l with peerFence := false }) (fun _ => ⟨rfl, rfl, rfl, rfl⟩) h
    unfold State.unfencedByPeer
    dsimp only
    split
    · exact k.freeLane _ _ _ g
    · exact g
  · exact h

/-! ### What the owners of requests and results do -/

theorem fenceByHost (k : Kept P) (h : P s) (i : LaneId) : P (s.fenceByHost i) := by
  unfold State.fenceByHost
  split
  · split
    · exact h
    · exact k.setLocalFence h i _ _
  · exact k.quarantine (k.setLocalFence h i _ _) i
  · split
    · exact h
    · exact k.setLocalFence h i _ _
  · exact k.expel (k.setLocalFence h i _ _) i _
  · exact k.expel (k.setLocalFence h i _ _) i _
  · exact k.expel (k.setLocalFence h i _ _) i _
  · exact k.declareFailing h i _ _
  · exact h
  · exact k.lane s i _ (fun _ => ⟨rfl, rfl, rfl, rfl⟩) h

theorem unfenceByHost (k : Kept P) (h : P s) (i : LaneId) : P (s.unfenceByHost i) := by
  have g := k.lane s i (fun l => { l with failCount := 0 }) (fun _ => ⟨rfl, rfl, rfl, rfl⟩) h
  unfold State.unfenceByHost
  dsimp only
  split
  · split
    · exact k.freeLane _ _ _ (k.clearLocalFence g i)
    · exact k.clearLocalFence g i
  · exact g

theorem withdrawEntry (k : Kept P) (h : P s) (e : Entry) : P (s.withdrawEntry e) := by
  unfold State.withdrawEntry
  dsimp only
  refine k.dropEntries ?_ _
  split
  · exact h
  · exact k.beginClose h _ _

theorem healthResult (k : Kept P) (h : P s) (i : LaneId) (o : DwellOutcome) : P (s.healthResult i o) := by
  have g := k.lane s i (fun l => { l with fom := some (figureOf o) }) (fun _ => ⟨rfl, rfl, rfl, rfl⟩) h
  unfold State.healthResult
  split
  · exact h
  · dsimp only
    split
    · split
      · exact k.declareFailing g i _ _
      · exact k.lane _ i _ (fun _ => ⟨rfl, rfl, rfl, rfl⟩) g
    · exact k.lane _ i _ (fun _ => ⟨rfl, rfl, rfl, rfl⟩) g

theorem trainingFails (k : Kept P) (h : P s) (i : LaneId) (f : Byte) : P (s.trainingFails i f) := by
  unfold State.trainingFails State.sendTrained
  refine k.expel (k.setLocalFence ?_ i _ _) i _
  split
  · exact k.send h _
  · exact h

/-- R12, R61, R115: the counting of ages, of repair patience and of entries' patience at a sweep tick. -/
theorem countAges (k : Kept P) (h : P s) : P s.countAges := by
  have one : ∀ (u : State) (i : LaneId), P u → P (u.ageLane i) := by
    intro u i g
    unfold State.ageLane
    split
    · split
      · unfold State.release
        dsimp only
        split
        · exact k.freeLane _ _ _ (k.log _ _ _ _ _ (k.clearLocalFence g i))
        · exact k.log _ _ _ _ _ (k.clearLocalFence g i)
      · exact k.lane u i _ (fun _ => ⟨rfl, rfl, rfl, rfl⟩) g
    · exact g
  unfold State.countAges
  split
  · exact k.foldl _ (fun u i g => one u i g) _ h
  · exact h

theorem countSeeking (k : Kept P) (h : P s) : P s.countSeeking := by
  have one : ∀ (u : State) (cp : SlotId × Nat), P u → P (u.countSeek cp) := by
    intro u cp g
    unfold State.countSeek
    split
    · split
      · exact g
      · split
        · exact g
        · split
          · exact k.exhaust (k.seeking (k.modPosition g _ _ _) _) _ _
          · exact k.modPosition g _ _ _
    · exact g
  exact k.foldl _ (fun u cp g => one u cp g) _ h

end Kept

end Sys2Proof.Machine
end

