-- ==== Sys2Proof/Laws/Forms.lean ====
section
/-! SUPPORT. Sys2Proof/Laws/Forms.lean: the shared work keeps each form of the machine: the pool, the dwell queue and the
units, the window, the fault log, the notice queues, and what it leaves alone altogether. -/

namespace Sys2Proof.Machine

open Sys2Proof

/-! ### What shared work leaves alone -/

theorem State.Within.refl (s : State) : s.Within s :=
  ⟨rfl, rfl, rfl, rfl, rfl, rfl, rfl, rfl, rfl, rfl, rfl, rfl, rfl, rfl, rfl, rfl, rfl, rfl, rfl, fun _ => ⟨_, rfl⟩,
    fun _ => rfl, fun _ => rfl⟩

theorem State.Within.trans {s t u : State} (a : s.Within t) (b : t.Within u) : s.Within u where
  side := b.side.trans a.side
  loading := b.loading.trans a.loading
  configPort := b.configPort.trans a.configPort
  params := b.params.trans a.params
  arrivals := b.arrivals.trans a.arrivals
  sweepTimer := b.sweepTimer.trans a.sweepTimer
  sweepCount := b.sweepCount.trans a.sweepCount
  sessions := b.sessions.trans a.sessions
  expectedSeq := b.expectedSeq.trans a.expectedSeq
  badFrames := b.badFrames.trans a.badFrames
  retransmissions := b.retransmissions.trans a.retransmissions
  peerHeard := b.peerHeard.trans a.peerHeard
  clash := b.clash.trans a.clash
  peerEnable := b.peerEnable.trans a.peerEnable
  peerFences := b.peerFences.trans a.peerFences
  joinMask := b.joinMask.trans a.joinMask
  joinSent := b.joinSent.trans a.joinSent
  controlTimer := b.controlTimer.trans a.controlTimer
  pending := b.pending.trans a.pending
  port := fun h => by
    obtain ⟨ns, e⟩ := a.port h
    obtain ⟨ms, f⟩ := b.port h
    exact ⟨ms, by rw [f, e]⟩
  lastGood := fun i => (b.lastGood i).trans (a.lastGood i)
  missed := fun i => (b.missed i).trans (a.missed i)

/-- A change of other fields than these, with the lane records and the ports as they were. -/
theorem State.within_raw (s : State) (pool : List LaneId) (slots : Table 16 Slot) (queue : List Entry)
    (units : Table 4 (Option Dwell)) (dwellQueue : List Dwell) (seeking : List (SlotId × Nat)) (trunk : TrunkState)
    (lastLoss : Option LossReason) (sendQueue : List Msg) (outstanding : List (Seq × Msg)) (nextSeq : Seq) (mark : Bool)
    (retryCount silenceCount : Nat) (sentSinceTick : Bool) (fenceChanges : List LaneId) (txFrames : List Frame)
    (sending : Option Frame) (ring : List LogEntry) (nextEntry : Half) (scratch : Scratch) :
    s.Within { s with
      pool := pool, slots := slots, queue := queue, units := units, dwellQueue := dwellQueue, seeking := seeking,
      trunk := trunk, lastLoss := lastLoss, sendQueue := sendQueue, outstanding := outstanding, nextSeq := nextSeq,
      mark := mark, retryCount := retryCount, silenceCount := silenceCount, sentSinceTick := sentSinceTick,
      fenceChanges := fenceChanges, txFrames := txFrames, sending := sending, ring := ring, nextEntry := nextEntry,
      scratch := scratch } :=
  ⟨rfl, rfl, rfl, rfl, rfl, rfl, rfl, rfl, rfl, rfl, rfl, rfl, rfl, rfl, rfl, rfl, rfl, rfl, rfl, fun _ => ⟨_, rfl⟩,
    fun _ => rfl, fun _ => rfl⟩

/-- Lane records changed, but for their last good presets and missed sweeps. -/
theorem State.within_lanes (s : State) (lanes : Table 24 Lane) (pool : List LaneId) (dwellQueue : List Dwell)
    (scratch : Scratch)
    (h : ∀ i, (lanes.get i).lastGood = (s.lane i).lastGood ∧ (lanes.get i).missed = (s.lane i).missed) :
    s.Within { s with lanes := lanes, pool := pool, dwellQueue := dwellQueue, scratch := scratch } :=
  ⟨rfl, rfl, rfl, rfl, rfl, rfl, rfl, rfl, rfl, rfl, rfl, rfl, rfl, rfl, rfl, rfl, rfl, rfl, rfl, fun _ => ⟨_, rfl⟩,
    fun i => (h i).1, fun i => (h i).2⟩

theorem State.within_modLane (s : State) (i : LaneId) (f : Lane → Lane)
    (hf : ∀ l, (f l).lastGood = l.lastGood ∧ (f l).missed = l.missed) : s.Within (s.modLane i f) := by
  refine s.within_lanes _ s.pool s.dwellQueue s.scratch fun j => ?_
  rw [Table.get_set]
  split
  · rename_i e; subst e; exact hf _
  · exact ⟨rfl, rfl⟩

theorem State.within_notify (s : State) (h : PortId) (n : Notice) : s.Within (s.notify h n) := by
  unfold State.notify
  split
  · refine { State.Within.refl s with port := fun g => ?_ }
    rw [State.port_modPort]
    split
    · rename_i e; subst e; exact ⟨_, rfl⟩
    · exact ⟨_, rfl⟩
  · exact .refl s

theorem State.within_beginDwell (s : State) (d : Dwell) : s.Within (s.beginDwell d) := by
  unfold State.beginDwell
  split
  · exact .refl s
  · refine s.within_modLane _ _ fun l => ?_
    split <;> exact ⟨rfl, rfl⟩

theorem Lane.atLoss_keeps (l : Lane) : l.atLoss.lastGood = l.lastGood ∧ l.atLoss.missed = l.missed := by
  unfold Lane.atLoss
  dsimp only
  split <;> exact ⟨rfl, rfl⟩

/-- The shared work leaves alone what `State.Within` names. -/
theorem kept_within (o : State) : Kept o.Within where
  rest s _ _ _ _ _ _ _ _ _ _ _ _ _ h :=
    h.trans (s.within_raw _ _ _ _ _ _ _ _ _ _ _ _ _ _ _ _ _ _ s.ring s.nextEntry _)
  place s _ _ h := h.trans (s.within_raw _ _ _ _ _ _ _ _ _ _ _ _ _ _ _ _ _ _ s.ring s.nextEntry _)
  out s _ _ _ _ h := h.trans (s.within_raw _ _ _ _ _ _ _ _ _ _ _ _ _ _ _ _ _ _ s.ring s.nextEntry _)
  passed s _ _ h := h.trans (s.within_raw _ _ _ _ _ _ _ _ _ _ _ _ _ _ _ _ _ _ s.ring s.nextEntry _)
  dropped s h := h.trans (s.within_raw _ _ _ _ _ _ _ _ _ _ _ _ _ _ _ _ _ _ s.ring s.nextEntry _)
  part _ _ _ h := h.trans ⟨rfl, rfl, rfl, rfl, rfl, rfl, rfl, rfl, rfl, rfl, rfl, rfl, rfl, rfl, rfl, rfl, rfl, rfl, rfl,
    fun _ => ⟨_, rfl⟩, fun _ => rfl, fun _ => rfl⟩
  log s _ _ _ _ h := h.trans (s.within_raw _ _ _ _ _ _ _ _ _ _ _ _ _ _ _ _ _ _ _ _ _)
  notify s g n h := h.trans (s.within_notify g n)
  lane s i f hf h := h.trans (s.within_modLane i f fun l => ⟨(hf l).2.2.1, (hf l).2.2.2⟩)
  moveLane s i st _ h := h.trans ((s.within_modLane i (Lane.enter st) fun _ => ⟨rfl, rfl⟩).trans
    (State.within_lanes _ _ _ _ s.scratch fun _ => ⟨rfl, rfl⟩))
  freeLane e s i h := h.trans
    ((s.within_modLane i (fun l => { (l.enter .free).clearPlace with failure := none }) fun _ => ⟨rfl, rfl⟩).trans
      (State.within_lanes _ _ _ _ { s.scratch with grown := true } fun _ => ⟨rfl, rfl⟩))
  rerun s i h := h.trans ((s.within_modLane i (fun l => { l with run := l.run + 1 }) fun _ => ⟨rfl, rfl⟩).trans
    (State.within_lanes _ _ s.pool _ s.scratch fun _ => ⟨rfl, rfl⟩))
  requestDwell s i p h := by
    unfold State.requestDwell
    split
    · exact h
    · exact h.trans (s.within_lanes s.lanes s.pool _ _ fun _ => ⟨rfl, rfl⟩)
  grantOne s t e h := by
    obtain ⟨u, d, _, _, _, rfl⟩ := State.grantOne_spec e
    refine h.trans (State.Within.trans ?_ (State.within_beginDwell _ d))
    exact s.within_raw _ _ _ _ _ _ _ _ _ _ _ _ _ _ _ _ _ _ s.ring s.nextEntry _
  lanesOffline s h := h.trans (s.within_lanes _ _ _ s.scratch fun i => by
    rw [Table.get_map]; exact Lane.atLoss_keeps _)

/-! ### The pool (R5) -/

theorem State.beginDwell_lane (s : State) (d : Dwell) (i : LaneId) :
    ((s.beginDwell d).lane i).state = (s.lane i).state ∧ ((s.beginDwell d).lane i).run = (s.lane i).run := by
  unfold State.beginDwell
  split
  · exact ⟨rfl, rfl⟩
  · rw [State.lane_modLane]
    split
    · rename_i e; subst e; split <;> exact ⟨rfl, rfl⟩
    · exact ⟨rfl, rfl⟩

@[simp] theorem State.beginDwell_pool (s : State) (d : Dwell) : (s.beginDwell d).pool = s.pool := by
  unfold State.beginDwell; split <;> rfl

@[simp] theorem State.beginDwell_dwellQueue (s : State) (d : Dwell) : (s.beginDwell d).dwellQueue = s.dwellQueue := by
  unfold State.beginDwell; split <;> rfl

@[simp] theorem State.beginDwell_units (s : State) (d : Dwell) : (s.beginDwell d).units = s.units := by
  unfold State.beginDwell; split <;> rfl

@[simp] theorem Lane.atLoss_state (l : Lane) : l.atLoss.state = .offline := by
  unfold Lane.atLoss
  dsimp only
  split
  · assumption
  · rfl

/-- The shared work keeps the pool. -/
theorem kept_poolMatches : Kept State.PoolMatches where
  rest _ _ _ _ _ _ _ _ _ _ _ _ _ _ h := h
  place _ _ _ h := h
  out _ _ _ _ _ h := h
  passed _ _ _ h := h
  dropped _ h := h
  part _ _ _ h := h
  log _ _ _ _ _ h := h
  notify s g n h := h.congr (by simp) fun i => by simp
  lane s i f hf h := s.poolMatches_modLane i f (fun l => (hf l).1) h
  moveLane s i st ne h := s.poolMatches_moveLane i st ne h
  freeLane e s i h := s.poolMatches_freeLane e i h
  rerun s i h := (s.poolMatches_modLane i (fun l => { l with run := l.run + 1 }) (fun _ => rfl) h).congr rfl fun _ => rfl
  requestDwell s i p h := by
    unfold State.requestDwell
    split <;> exact h
  grantOne s t e h := by
    obtain ⟨u, d, _, _, _, rfl⟩ := State.grantOne_spec e
    exact h.congr (State.beginDwell_pool _ _) fun i => (State.beginDwell_lane _ d i).1
  lanesOffline s _ := by
    refine ⟨List.nodup_nil, fun i => ?_⟩
    simp [State.lane]

/-! ### The window, the log, the notices (R129, R167, R160) -/

theorem State.WindowKept.congr {s t : State} (h : s.WindowKept) (o : t.outstanding = s.outstanding)
    (q : t.sendQueue = s.sendQueue) (n : t.nextSeq = s.nextSeq) : t.WindowKept := by
  unfold State.WindowKept; rw [o, q, n]; exact h

theorem State.LogKept.congr {s t : State} (h : s.LogKept) (r : t.ring = s.ring) (n : t.nextEntry = s.nextEntry) :
    t.LogKept := by
  unfold State.LogKept; rw [r, n]; exact h

theorem State.NoticesKept.congr {s t : State} (h : s.NoticesKept) (p : t.ports = s.ports) : t.NoticesKept := by
  intro g; unfold State.port; rw [p]; exact h g

/-- What a granted dwell leaves alone of the channel, the log and the ports. -/
theorem State.grantOne_rest {s t : State} (h : s.grantOne = some t) :
    t.outstanding = s.outstanding ∧ t.sendQueue = s.sendQueue ∧ t.nextSeq = s.nextSeq ∧ t.ring = s.ring
      ∧ t.nextEntry = s.nextEntry ∧ t.ports = s.ports := by
  obtain ⟨u, d, _, _, _, rfl⟩ := State.grantOne_spec h
  unfold State.beginDwell
  split <;> exact ⟨rfl, rfl, rfl, rfl, rfl, rfl⟩

@[simp] theorem State.requestDwell_rest (s : State) (i : LaneId) (p : Purpose) :
    (s.requestDwell i p).outstanding = s.outstanding ∧ (s.requestDwell i p).sendQueue = s.sendQueue
      ∧ (s.requestDwell i p).nextSeq = s.nextSeq ∧ (s.requestDwell i p).ring = s.ring
      ∧ (s.requestDwell i p).nextEntry = s.nextEntry ∧ (s.requestDwell i p).ports = s.ports := by
  unfold State.requestDwell
  split <;> exact ⟨rfl, rfl, rfl, rfl, rfl, rfl⟩

/-- The shared work keeps the window. -/
theorem kept_window : Kept State.WindowKept where
  rest _ _ _ _ _ _ _ _ _ _ _ _ _ _ h := h
  place s m room h := ⟨h.1, by simp only [List.length_append, List.length_singleton]; omega, h.2.2⟩
  out s m rest e room h := by
    obtain ⟨a, b, c⟩ := h
    refine ⟨by simp only [List.length_append, List.length_singleton]; omega, ?_, ?_⟩
    · have : s.sendQueue.length = rest.length + 1 := by rw [e]; rfl
      change rest.length ≤ Config.sendCapacity
      omega
    simp only [List.map_append, List.length_append, List.map_cons, List.map_nil, List.length_cons, List.length_nil,
      Nat.zero_add]
    rw [before_succ, c]
  passed s n le h := by
    obtain ⟨a, b, c⟩ := h
    refine ⟨by simp only [List.length_drop]; omega, b, ?_⟩
    simp only [List.map_drop, List.length_drop]
    rw [c, drop_before _ _ _ le]
  dropped s _ := ⟨by simp, by simp, by simp [before]⟩
  part _ _ _ h := h
  log _ _ _ _ _ h := h
  notify s g n h := h.congr (by simp) (by simp) (by simp)
  lane _ _ _ _ h := h
  moveLane _ _ _ _ h := h
  freeLane _ _ _ h := h
  rerun _ _ h := h
  requestDwell s i p h :=
    have r := s.requestDwell_rest i p
    h.congr r.1 r.2.1 r.2.2.1
  grantOne s t e h :=
    have r := State.grantOne_rest e
    h.congr r.1 r.2.1 r.2.2.1
  lanesOffline _ h := h

/-- The shared work keeps the fault log's ring. -/
theorem kept_log : Kept State.LogKept where
  rest _ _ _ _ _ _ _ _ _ _ _ _ _ _ h := h
  place _ _ _ h := h
  out _ _ _ _ _ h := h
  passed _ _ _ h := h
  dropped _ h := h
  part _ _ _ h := h
  log s k l t d h := s.logKept_log k l t d h
  notify s g n h := h.congr (by simp) (by simp)
  lane _ _ _ _ h := h
  moveLane _ _ _ _ h := h
  freeLane _ _ _ h := h
  rerun _ _ h := h
  requestDwell s i p h :=
    have r := s.requestDwell_rest i p
    h.congr r.2.2.2.1 r.2.2.2.2.1
  grantOne s t e h :=
    have r := State.grantOne_rest e
    h.congr r.2.2.2.1 r.2.2.2.2.1
  lanesOffline _ h := h

/-- The shared work keeps the notice queues. -/
theorem kept_notices : Kept State.NoticesKept where
  rest _ _ _ _ _ _ _ _ _ _ _ _ _ _ h := h
  place _ _ _ h := h
  out _ _ _ _ _ h := h
  passed _ _ _ h := h
  dropped _ h := h
  part _ _ _ h := h
  log _ _ _ _ _ h := h
  notify s g n h := s.noticesKept_notify g n h
  lane _ _ _ _ h := h
  moveLane _ _ _ _ h := h
  freeLane _ _ _ h := h
  rerun _ _ h := h
  requestDwell s i p h := h.congr (s.requestDwell_rest i p).2.2.2.2.2
  grantOne _ _ e h := h.congr (State.grantOne_rest e).2.2.2.2.2
  lanesOffline _ h := h

/-! ### Units and dwells (R69, R71, R72) -/

/-- R69: no two units measure one lane, unit by unit. -/
theorem State.unitsApart_iff (s : State) :
    s.UnitsApart ↔ ∀ u v d e, s.unit u = some d → s.unit v = some e → d.lane = e.lane → u = v := by
  have key : ∀ l : List UnitId, l.Nodup →
      ((l.filterMap fun u => (s.unit u).map Dwell.lane).Nodup ↔
        ∀ u ∈ l, ∀ v ∈ l, ∀ d e, s.unit u = some d → s.unit v = some e → d.lane = e.lane → u = v) := by
    intro l
    induction l with
    | nil => simp
    | cons a l ih =>
      intro nd
      obtain ⟨na, nl⟩ := List.nodup_cons.mp nd
      have ih := ih nl
      rw [List.filterMap_cons]
      cases h : s.unit a with
      | none =>
        simp only [Option.map_none]
        rw [ih]
        constructor
        · intro g u hu v hv d e du ev
          rcases List.mem_cons.mp hu with rfl | hu
          · rw [h] at du; cases du
          rcases List.mem_cons.mp hv with rfl | hv
          · rw [h] at ev; cases ev
          exact g u hu v hv d e du ev
        · intro g u hu v hv
          exact g u (List.mem_cons_of_mem _ hu) v (List.mem_cons_of_mem _ hv)
      | some x =>
        simp only [Option.map_some, List.nodup_cons]
        rw [ih]
        constructor
        · rintro ⟨n, g⟩ u hu v hv d e du ev le
          have no : ∀ w ∈ l, ∀ y, s.unit w = some y → y.lane ≠ x.lane := by
            intro w hw y hy k
            exact n (List.mem_filterMap.mpr ⟨w, hw, by rw [hy, ← k]; rfl⟩)
          rcases List.mem_cons.mp hu with ua | hu <;> rcases List.mem_cons.mp hv with va | hv
          · rw [ua, va]
          · rw [ua, h] at du; cases du; exact absurd le.symm (no v hv e ev)
          · rw [va, h] at ev; cases ev; exact absurd le (no u hu d du)
          · exact g u hu v hv d e du ev le
        · intro g
          refine ⟨fun m => ?_, fun u hu v hv =>
            g u (List.mem_cons_of_mem _ hu) v (List.mem_cons_of_mem _ hv)⟩
          obtain ⟨w, hw, e⟩ := List.mem_filterMap.mp m
          obtain ⟨y, hy, k⟩ := Option.map_eq_some_iff.mp e
          have := g a List.mem_cons_self w (List.mem_cons_of_mem _ hw) x y h hy k.symm
          exact na (this ▸ hw)
  have := key (indexes 4) (indexes_nodup 4)
  simpa using this

theorem State.UnitsApart.congr {s t : State} (h : s.UnitsApart) (u : t.units = s.units) : t.UnitsApart := by
  unfold State.UnitsApart State.unit; rw [u]; exact h

/-- A unit that becomes idle leaves the others apart. -/
theorem State.unitsApart_free (s : State) (u : UnitId) (h : s.UnitsApart) :
    State.UnitsApart { s with units := s.units.set u none } := by
  rw [State.unitsApart_iff] at h ⊢
  intro v w d e hd he
  simp only [State.unit, Table.get_set] at hd he
  split at hd
  · cases hd
  split at he
  · cases he
  exact h v w d e hd he

/-- The shared work keeps the units apart and the dwell queue current. -/
theorem kept_dwells : Kept fun s => s.UnitsApart ∧ s.DwellsCurrent where
  rest _ _ _ _ _ _ _ _ _ _ _ _ _ _ h := h
  place _ _ _ h := h
  out _ _ _ _ _ h := h
  passed _ _ _ h := h
  dropped _ h := h
  part _ _ _ h := h
  log _ _ _ _ _ h := h
  notify s g n h := ⟨h.1.congr (by simp), h.2.congr (by simp) fun i => by simp⟩
  lane s i f hf h := ⟨h.1, s.dwellsCurrent_modLane i f (fun l => (hf l).2.1) h.2⟩
  moveLane s i st _ h := ⟨h.1, s.dwellsCurrent_moveLane i st h.2⟩
  freeLane e s i h := ⟨h.1, s.dwellsCurrent_freeLane e i h.2⟩
  rerun s i h := ⟨h.1, s.dwellsCurrent_cancel i _ h.2⟩
  requestDwell s i p h := by
    refine ⟨h.1.congr ?_, s.dwellsCurrent_requestDwell i p h.2⟩
    unfold State.requestDwell
    split <;> rfl
  grantOne s t e h := by
    obtain ⟨u, d, free, m, idle, rfl⟩ := State.grantOne_spec e
    constructor
    · refine State.UnitsApart.congr ?_ (State.beginDwell_units _ _)
      have a := (State.unitsApart_iff s).mp h.1
      have no : ∀ v f, s.unit v = some f → f.lane ≠ d.lane := by
        intro v f hv k
        have : s.laneBusy d.lane = true := by
          unfold State.laneBusy
          rw [List.any_eq_true]
          exact ⟨v, mem_indexes v, by simp [hv, k]⟩
        rw [idle] at this
        cases this
      rw [State.unitsApart_iff]
      intro v w f g hf hg k
      simp only [State.unit, Table.get_set] at hf hg
      split at hf <;> split at hg
      · rename_i x y; rw [x, y]
      · cases hf; exact absurd k.symm (no w g hg)
      · cases hg; exact absurd k (no v f hf)
      · exact a v w f g hf hg k
    · refine State.DwellsCurrent.congr (s := { s with dwellQueue := s.dwellQueue.erase d }) ?_
        (State.beginDwell_dwellQueue _ _) fun i => (State.beginDwell_lane _ d i).2
      exact ⟨h.2.1.sublist (List.erase_sublist.map _), fun f hf => h.2.2 f (List.mem_of_mem_erase hf)⟩
  lanesOffline s h := ⟨h.1, ⟨by simp, by simp⟩⟩

end Sys2Proof.Machine
end

