-- ==== Sys2Proof/Laws/Events.lean ====
section
/-! SUPPORT. Sys2Proof/Laws/Events.lean: the induction over commands, packaged once: a property that the shared work and
the updates of single commands keep is kept by every command. -/

namespace Sys2Proof.Machine

open Sys2Proof

/-- A property that the shared work keeps, and every update that belongs to one command. -/
structure KeptByEvents (P : State → Prop) : Prop where
  k : Kept P
  /-- Fields that one command or the ports change, and no form speaks of. -/
  ev : ∀ (s : State) (params : Params) (arrivals : Half) (sweepTimer : Timer) (sweepCount : Half) (expectedSeq : Seq)
    (badFrames retransmissions : Nat) (peerHeard clash : Bool) (peerEnable peerFences joinMask : Option Mask)
    (joinSent : Bool) (controlTimer : Timer) (ports : Table 6 Port) (loading : Bool), P s →
    P { s with
      params := params, arrivals := arrivals, sweepTimer := sweepTimer, sweepCount := sweepCount,
      expectedSeq := expectedSeq, badFrames := badFrames, retransmissions := retransmissions, peerHeard := peerHeard,
      clash := clash, peerEnable := peerEnable, peerFences := peerFences, joinMask := joinMask, joinSent := joinSent,
      controlTimer := controlTimer, ports := ports, loading := loading }
  /-- R177: what the load has issued and clocked in. -/
  config : ∀ (s : State) (c : ConfigPort), P s → P { s with configPort := c }
  /-- R75: a unit becomes idle. -/
  freeUnit : ∀ (s : State) (u : UnitId), P s → P { s with units := s.units.set u none }
  /-- A lane's record, but for its state and run number (R88, R98). -/
  lane' : ∀ (s : State) (i : LaneId) (f : Lane → Lane), (∀ l, (f l).state = l.state ∧ (f l).run = l.run) → P s →
    P (s.modLane i f)
  /-- R101: every lane's record, but for its state and run number. -/
  lanes : ∀ (s : State) (f : Lane → Lane), (∀ l, (f l).state = l.state ∧ (f l).run = l.run) → P s →
    P { s with lanes := s.lanes.map f }
  session : ∀ s : State, P s → P s.openSession
  rebuild : ∀ s : State, P s → P s.rebuildLanes
  reset : ∀ (side : Side) (steer present : Table 6 Bool) (pending : List Instr) (n : Nat),
    P { State.afterReset side steer present with pending := pending, losses := n }

variable {P : State → Prop} {s : State}
namespace KeptByEvents

theorem port (e : KeptByEvents P) (h : P s) (g : PortId) (f : Port → Port) : P (s.modPort g f) :=
  e.ev s _ _ _ _ _ _ _ _ _ _ _ _ _ _ _ _ h

theorem reply (e : KeptByEvents P) (h : P s) (g : PortId) (st : Status) (rs : List Byte) :
    P (s.reply g st rs) := e.port h _ _

theorem silence (e : KeptByEvents P) (h : P s) (n : Nat) : P { s with silenceCount := n } :=
  e.k.rest s _ _ _ _ _ _ _ _ _ _ _ _ _ h

theorem grantDue (e : KeptByEvents P) (h : P s) : P s.grantDue := e.k.scratch h _

theorem discardFrame (e : KeptByEvents P) (h : P s) : P s.discardFrame := by
  unfold State.discardFrame
  split
  · exact h
  · exact e.k.part s _ _ h

theorem received (e : KeptByEvents P) (h : P s) : P s.received := e.k.scratch h _

theorem receive (e : KeptByEvents P) (h : P s) (q a : Seq) (f : State → State) (hf : ∀ s, P s → P (f s)) :
    P (s.receive q a f) := by
  unfold State.receive
  split
  · exact e.discardFrame h
  · dsimp only
    have g := e.k.acknowledge (e.silence h 0) a
    split
    · exact e.k.finish (hf _ (e.received (e.ev _ _ _ _ _ _ _ _ _ _ _ _ _ _ _ _ _ g)))
    · exact g

theorem beginJoining (e : KeptByEvents P) (h : P s) : P s.beginJoining :=
  e.ev _ _ _ _ _ _ _ _ _ _ _ _ _ _ _ _ _ (e.k.rest s _ _ _ .joining _ _ _ _ _ [] _ _ _ h)

theorem goUp (e : KeptByEvents P) (h : P s) : P s.goUp := by
  have j : P (s.openSession.sendJoin true true) := e.k.hand (e.session s h) _ _
  have g := e.k.log _ .trunkUp none none (BitVec.ofNat 16 (s.openSession.sendJoin true true).enabledCount) j
  have fc : ∀ u : State, P u → P u.sendFenceChanges := by
    intro u hu
    unfold State.sendFenceChanges
    refine e.k.fenceChanges (e.k.foldl _ (fun _ _ hv => ?_) _ hu) _
    unfold State.sendFenceChange
    split <;> exact e.k.send hv _
  exact e.k.notifyAll (e.rebuild _ (fc _ g)) _

theorem joins (e : KeptByEvents P) (h : P s) (j : JoinInfo) : P (s.receiveJoin j) := by
  unfold State.receiveJoin
  split
  · split
    · exact e.discardFrame h
    unfold State.joinWhileJoining
    split
    · split
      · exact h
      · exact e.ev _ _ _ _ _ _ _ _ _ _ _ _ _ _ _ _ _ (e.k.log s _ _ _ _ h)
    · dsimp only
      have g : P { s with peerHeard := true, peerEnable := some j.enable, peerFences := some j.fences } :=
        e.ev s _ _ _ _ _ _ _ _ _ _ _ _ _ _ _ _ h
      split
      · exact e.k.finish (e.goUp (e.received g))
      · exact g
  · unfold State.joinUp
    have g := e.silence h 0
    dsimp only
    split
    · exact e.k.finish (e.k.goLost (e.received g) _)
    · split
      · exact g
      · split
        · exact e.k.hand g _ _
        · exact e.k.finish (e.k.goLost (e.received g) _)
  · exact h
  · exact e.discardFrame h

theorem endTransaction (e : KeptByEvents P) (h : P s) (p : PortId) (c : Byte) (n : Nat)
    (f : Port → Transaction → List Byte) (a : Port → Transaction → Port) : P (s.endTransaction p c n f a) := by
  unfold State.endTransaction
  have g : P (if (s.port p).transaction = none then s.takeCommand p c else s) := by
    split
    · exact e.port h _ _
    · exact h
  dsimp only
  split
  · exact g
  · split
    · exact g
    · exact e.port g _ _

theorem takeRequest (_ : KeptByEvents P) (h : P s) (p : PortId) (k : ReqKind) (f : List Byte → State)
    (hf : ∀ b, P (f b)) : P (s.takeRequest p k f) := by
  unfold State.takeRequest
  split
  · exact h
  · exact hf _

theorem idleAck (e : KeptByEvents P) (h : P s) : P s.idleAck := by
  unfold State.idleAck
  dsimp only
  have g : P (if s.sentSinceTick = true then s else s.hand 0 .ack) := by
    split
    · exact h
    · exact e.k.hand h _ _
  exact e.k.rest _ _ _ _ _ _ _ _ _ false _ _ _ _ g

theorem resend (e : KeptByEvents P) (h : P s) : P s.resend :=
  e.k.foldl _ (fun _ _ g => e.k.hand g _ _) _ (e.k.dropFrames h _)

theorem retransmitAll (e : KeptByEvents P) (h : P s) : P s.retransmitAll := by
  unfold State.retransmitAll
  dsimp only
  refine e.k.log _ _ _ _ _ ?_
  have g := e.resend h
  generalize s.resend = u at g
  have g : P { u with mark := false } := e.k.rest u _ _ _ _ _ _ _ _ _ _ _ _ _ g
  exact e.ev { u with mark := false } _ _ _ _ _ _ _ _ _ _ _ _ _ _ _ _ g

theorem controlTickIf (e : KeptByEvents P) (h : P s) (d : Bool) : P (s.controlTickIf d) := by
  unfold State.controlTickIf
  split
  · unfold State.controlTicked
    have g : P { s with controlTimer := .running s.params.controlTick } := e.ev s _ _ _ _ _ _ _ _ _ _ _ _ _ _ _ _ h
    dsimp only
    split
    · exact g
    · exact e.ev _ _ _ _ _ _ _ _ _ _ _ _ _ true _ _ _ (e.k.hand g _ _)
    · refine e.k.finish ?_
      unfold State.upTick
      dsimp only
      have g := e.silence g (s.silenceCount + 1)
      split
      · exact e.k.goLost g _
      · unfold State.retryTick
        split
        · exact e.idleAck (e.k.rest _ _ _ _ _ _ false _ _ _ _ _ _ _ g)
        · split
          · exact e.idleAck (e.k.rest _ _ _ _ _ _ true _ _ _ _ _ _ _ g)
          · dsimp only
            have g := e.k.rest _ s.slots s.queue s.seeking s.trunk s.lastLoss s.mark (s.retryCount + 1)
              (s.silenceCount + 1) s.sentSinceTick s.fenceChanges s.txFrames s.sending s.scratch g
            split
            · exact e.k.goLost g _
            · exact e.idleAck (e.retransmitAll g)
    · exact e.ev _ _ _ _ _ _ _ _ _ _ _ _ _ true _ _ _ (e.k.hand (e.beginJoining g) _ _)
  · exact h

theorem sweepTickIf (e : KeptByEvents P) (h : P s) (d : Bool) : P (s.sweepTickIf d) := by
  unfold State.sweepTickIf
  split
  · have g : P s.sweepBegin := e.ev s _ _ _ _ _ _ _ _ _ _ _ _ _ _ _ _ h
    have g := e.k.countPatience (e.k.countSeeking (e.k.reportGrowth (e.k.countAges g)))
    refine e.k.finish ?_
    have key : ∀ u : State, P u → P u.sweep := ?_
    · exact key _ g
    intro u g
    unfold State.sweep
    have one : ∀ u i, P u → P (State.healthRequest u i) := by
      intro u i hu
      unfold State.healthRequest
      split
      · exact e.lane' _ _ _ (fun _ => ⟨rfl, rfl⟩) hu
      · exact e.k.requestDwell _ _ _ hu
    have f := e.k.foldl _ one u.activeLanes g
    dsimp only
    split
    · exact f
    · exact e.k.log _ _ _ _ _ f
  · exact h

theorem takeOpen (e : KeptByEvents P) (h : P s) (p : PortId) (t : Byte) (b : List Byte) : P (s.takeOpen p t b) := by
  unfold State.takeOpen
  split
  · exact e.reply h _ _ _
  split
  · exact e.reply h _ _ _
  · rename_i o _ _ _
    have a : P { s with arrivals := s.arrivals + 1 } := e.ev s _ _ _ _ _ _ _ _ _ _ _ _ _ _ _ _ h
    have g : P (s.appendEntry p t o) := e.k.queue a _
    refine e.k.finish ?_
    unfold State.replyOpen
    split <;> exact e.reply (e.k.scan g) _ _ _

theorem succeeds (e : KeptByEvents P) (h : P s) (i : LaneId) (b : PresetId) (f : Byte) :
    P (s.trainingSucceeds i b f) := by
  have st : ∀ v, P v → P (State.sendTrained v i true) := by
    intro v hv; unfold State.sendTrained; split
    · exact e.k.send hv _
    · exact hv
  have g := st _ (e.lane' s i (Lane.confirmed s.params b f) (fun _ => ⟨rfl, rfl⟩) h)
  unfold State.trainingSucceeds
  dsimp only
  split
  · exact e.k.activate g _
  · exact e.k.moveLane _ _ _ (by decide) g

theorem dwellResult (e : KeptByEvents P) (h : P s) (u : UnitId) (o : DwellOutcome) :
    ∀ t, exec (.dwellResult u o) s = .next t → P t := by
  intro t ht
  cases ht
  split
  · exact h
  · rename_i d _
    unfold State.dwellEnds
    dsimp only
    refine e.k.finish ?_
    have g : P (State.grantDue { s with units := s.units.set u none }) := e.grantDue (e.freeUnit s u h)
    split
    · unfold State.deliverResult
      split
      · unfold State.trainResult
        split
        · exact g
        · split
          · unfold State.confirmResult
            split
            · exact e.succeeds g _ _ _
            · split
              · exact e.k.restartAttempt g _ _
              · exact e.k.trainingFails g _ _
          · exact e.k.requestDwell _ _ _ (e.lane' _ _ _ (fun _ => ⟨rfl, rfl⟩) g)
      · exact e.k.healthResult g _ _
    · exact g

/-- What every event keeps, every command keeps. -/
theorem exec_keeps (e : KeptByEvents P) (h : P s) (c : Instr) : ∀ t, exec c s = .next t → P t := by
  intro t ht
  cases c with
  | dwellResult u o => exact e.dwellResult h u o t ht
  | deviceReset => cases ht; exact e.reset _ _ _ _ _
  | configLoadEnd image =>
    cases ht
    split
    · unfold State.endLoad
      dsimp only
      refine e.ev _ _ _ _ _ _ _ _ _ _ _ _ _ _ _ _ _ (e.beginJoining ?_)
      refine e.config _ _ (e.ev _ _ _ _ _ _ _ _ _ _ _ _ _ _ _ _ false ?_)
      refine e.ev _ _ _ _ _ _ _ _ _ _ _ _ _ _ _ _ _
        (e.k.foldl _ (fun u _ hu => e.k.log u _ _ _ _ hu) _ ?_)
      exact e.ev s _ _ _ _ _ _ _ _ _ _ _ _ _ _ _ _ h
    · exact h
  | hostArrival p => cases ht; split; exact h; exact e.port h _ _
  | hostDeparture p =>
    cases ht; split
    · refine e.k.finish (e.k.dropEntries (e.k.foldl _ (fun u x hu => e.k.beginClose hu _ _) _ (e.port h _ _)) _)
    · exact h
  | writeRequest | readReply | readNotice | readStatus => cases ht; exact e.endTransaction h _ _ _ _ _
  | unknownCommand => cases ht; split; exact h; exact e.endTransaction h _ _ _ _ _
  | openCircuit p => cases ht; exact e.takeRequest h _ _ _ fun b => e.takeOpen h _ _ _
  | closeRequest p =>
    cases ht; refine e.takeRequest h _ _ _ fun b => ?_
    unfold State.takeClose
    split
    · split
      · exact e.reply h _ _ _
      · unfold State.closeSlot
        split
        · exact e.reply h _ _ _
        · split
          · exact e.reply h _ _ _
          · split
            · exact e.reply h _ _ _
            · exact e.k.finish (e.reply (e.k.dropEntries (e.k.beginClose h _ _) _) _ _ _)
            · exact e.k.finish (e.reply (e.k.beginClose h _ _) _ _ _)
    · exact e.reply h _ _ _
  | withdraw p =>
    cases ht; refine e.takeRequest h _ _ _ fun b => ?_
    unfold State.takeWithdraw
    split
    · split
      · exact e.reply h _ _ _
      · exact e.k.finish (e.reply (e.k.withdrawEntry h _) _ _ _)
    · exact e.reply h _ _ _
  | circuitStatus p =>
    cases ht; refine e.takeRequest h _ _ _ fun b => ?_
    unfold State.takeCircuitStatus; split
    · split <;> exact e.reply h _ _ _
    · exact e.reply h _ _ _
  | laneStatus p =>
    cases ht; refine e.takeRequest h _ _ _ fun b => ?_
    unfold State.takeLaneStatus; split
    · split <;> exact e.reply h _ _ _
    · exact e.reply h _ _ _
  | trunkStatus p => cases ht; exact e.takeRequest h _ _ _ fun b => e.reply h _ _ _
  | readLog p =>
    cases ht; refine e.takeRequest h _ _ _ fun b => ?_
    unfold State.takeReadLog; split
    · split
      · unfold State.readLog; dsimp only; split <;> exact e.reply (e.port h _ _) _ _ _
      · exact e.reply h _ _ _
    · exact e.reply h _ _ _
  | readParam p =>
    cases ht; refine e.takeRequest h _ _ _ fun b => ?_
    unfold State.takeReadParam; split
    · split <;> exact e.reply h _ _ _
    · exact e.reply h _ _ _
  | writeParam p =>
    cases ht; refine e.takeRequest h _ _ _ fun b => ?_
    unfold State.takeWriteParam; split
    · split
      · exact e.reply h _ _ _
      · unfold State.writeParam
        split
        · exact e.reply h _ _ _
        · refine e.k.finish (e.reply ?_ _ _ _)
          have g : ∀ ps, P { s with params := ps } := fun ps => e.ev s _ _ _ _ _ _ _ _ _ _ _ _ _ _ _ _ h
          unfold ParamId.afterWrite
          split
          · unfold State.clampStrikes
            split
            · refine e.lanes _ _ (fun l => ?_) (g _)
              unfold Lane.clampStrikes; split <;> exact ⟨rfl, rfl⟩
            · exact g _
          · exact e.k.scratch (g _) _
          · exact e.k.scratch (g _) _
          · exact g _
    · exact e.reply h _ _ _
  | fenceLane p =>
    cases ht; refine e.takeRequest h _ _ _ fun b => ?_
    unfold State.takeLane1; split
    · split
      · exact e.reply h _ _ _
      · exact e.k.finish (e.reply (e.k.fenceByHost h _) _ _ _)
    · exact e.reply h _ _ _
  | unfenceLane p =>
    cases ht; refine e.takeRequest h _ _ _ fun b => ?_
    unfold State.takeLane1; split
    · split
      · exact e.reply h _ _ _
      · exact e.k.finish (e.reply (e.k.unfenceByHost h _) _ _ _)
    · exact e.reply h _ _ _
  | restartTrunk p =>
    cases ht; refine e.takeRequest h _ _ _ fun b => e.k.finish (e.reply ?_ _ _ _)
    unfold State.restartByHost; split
    · exact e.k.goLost h _
    · exact e.beginJoining h
    · exact h
    · exact h
  | badFrame b => cases ht; split; exact e.ev _ _ _ _ _ _ _ _ _ _ _ _ _ _ _ _ _ (e.k.part s false s.losses h); exact h
  | join q a j => cases ht; exact e.joins h j
  | joinWhileUp q a j => cases ht; exact e.joins h j
  | ack q a => cases ht; split; exact e.k.acknowledge (e.silence h 0) a; exact e.discardFrame h
  | setup => cases ht; exact e.receive h _ _ _ fun s h => e.k.takeSetup h _ _ _ _ _ _ _
  | accept => cases ht; exact e.receive h _ _ _ fun s h => e.k.takeAccept h _ _
  | refuse => cases ht; exact e.receive h _ _ _ fun s h => e.k.takeRefuse h _ _ _
  | trained => cases ht; exact e.receive h _ _ _ fun s h => e.k.takeTrained h _ _ _
  | laneFail => cases ht; exact e.receive h _ _ _ fun s h => e.k.takeLaneFail h _ _
  | amend => cases ht; exact e.receive h _ _ _ fun s h => e.k.takeAmend h _ _ _
  | amendReply => cases ht; exact e.receive h _ _ _ fun s h => e.k.takeAmendReply h _ _ _
  | close => cases ht; exact e.receive h _ _ _ fun s h => e.k.takePeerClose h _ _
  | closed => cases ht; exact e.receive h _ _ _ fun s h => e.k.takeClosed h _
  | fence => cases ht; exact e.receive h _ _ _ fun s h => e.k.takeFence h _
  | unfence => cases ht; exact e.receive h _ _ _ fun s h => e.k.takeUnfence h _
  | frameTransmit =>
    cases ht; unfold State.beginFrame; split
    · exact h
    · exact e.k.rest s _ _ _ _ _ _ _ _ _ _ _ _ _ h
  | controlTick | retransmit | tccRetry | peerSilent => cases ht; exact e.controlTickIf h _
  | sweepTick | quarantineRelease | openExpired | seekExhausted => cases ht; exact e.sweepTickIf h _
  | lossOfLock i => cases ht; split; exact e.k.finish (e.k.declareFailing h _ _ _); exact h
  | commandByte => cases ht; exact e.port h _ _
end KeptByEvents

end Sys2Proof.Machine
end

