-- ==== Sys2Proof/WellFormed.lean ====
section
/-! DEFINITION. Sys2Proof/WellFormed.lean: which operands a command can have. `exec` takes every command; these are the
ones that something outside the part can bring about. -/

namespace Sys2Proof

/-- R127, R128: the fields of a sequenced message fit its layout. -/
def Instr.fits : Instr → Bool
  | .setup _ _ t far near cls rw mw pairs => (Msg.setup t far near cls rw mw pairs).fits
  | .refuse _ _ t r lanes => (Msg.refuse t r lanes).fits
  | _ => true

/-- The operands of a command are ones the manual allows: an image of at most 264 bytes (R177), a bad frame that is
judged bad (R127), an unknown command byte that is not one of the four (R149), a position 0 to 7 (R22), and the counts
of SETUP and REFUSE within their layouts (R128). -/
def Instr.wellFormed : Instr → Bool
  | .configLoadEnd image => decide (image.length ≤ 264)
  | .badFrame bytes => decide (judge bytes = .bad)
  | .unknownCommand _ code _ => !Machine.cmdDefined code
  | .seekExhausted _ pos => decide (pos < 8)
  | i => i.fits

end Sys2Proof
end

