-- ==== Sys2Proof/Tests/Slice0.lean ====
section
/-! SUPPORT. Sys2Proof/Tests/Slice0.lean: one-step tests whose expected results come from the manual's own examples and
tables, the refusals of WellFormed, and for each statement with hypotheses a state and operands that meet them. -/

namespace Sys2Proof.Tests

set_option Elab.async false

open Sys2Proof Sys2Proof.Machine

/-! ### Small states -/

/-- The state a command leaves. -/
def after (c : Instr) (s : State) : State :=
  match exec c s with
  | .next t => t
  | .fault _ => s
  | .refused _ => s

/-- A side with its six hosts present and steering, its load ended and its trunk UP, every lane OFFLINE. -/
def up (side : Side) : State :=
  { State.afterReset side (Table.fill 6 true) (Table.fill 6 true) with
    loading := false, trunk := .up, sweepTimer := .running 20, controlTimer := .running 4, joinMask := some 0xFFFFFF#24 }

/-- Some lanes changed alike. -/
def onLanes (ls : List LaneId) (f : Lane → Lane) (s : State) : State := ls.foldl (fun s i => s.modLane i f) s

/-- The pool's lanes, FREE. -/
def pooled (ls : List LaneId) (s : State) : State := { onLanes ls (fun l => { l with state := .free }) s with pool := ls }

/-- A port with a dispatched request. -/
def ask (h : PortId) (k : ReqKind) (tag : Byte) (params : List Byte) (s : State) : State :=
  s.modPort h fun p => { p with link := .working ⟨k, tag, params⟩ }

/-- A port with a transaction in progress. -/
def busy (h : PortId) (code : Byte) (void : Bool) (frame : List Byte) (s : State) : State :=
  s.modPort h fun p => { p with transaction := some ⟨code, void, frame, void⟩ }

/-- A lane in its place. -/
def owned (i : LaneId) (st : LaneState) (pl : Place) (s : State) : State :=
  s.modLane i fun l => { l with state := st, place := some pl }

/-- A tag of generation 0. -/
def tagOn (side : Side) (c : SlotId) : Tag := ⟨side, c, 0⟩

/-- A circuit between H0 here and H1 there, of requested width 2 and minimum width 1. -/
def circ (st : CircuitState) (role : CircuitRole) (t : Tag) (qs : List Position) : Circuit :=
  { state := st, role := role, tag := t, answerSlot := none, near := 0, far := 1, cls := .shared, reqWidth := 2,
    minWidth := 1, reqTag := some 7, positions := qs, repairCount := 0, closeReason := none, everUp := st ≠ .proposed }

/-- A setup queue entry of H0 for H1. -/
def entry (tag : Byte) (slot : Option SlotId) (patience : Nat) : Entry :=
  { port := 0, tag := tag, far := 1, cls := .shared, reqWidth := 2, minWidth := 1, patience := patience, arrival := 0,
    slot := slot, reserved := [], conflicts := 0 }

/-- A current lane's place in slot C0. -/
def cur (p : Nat) : Place := ⟨0, .current, p⟩

/-- A position that holds a lane. -/
def held (l : HostLane) (i : LaneId) : Position := { hostLane := l, current := some i }

/-! ### WellFormed refuses what no sender can bring about -/

theorem test_wellFormed_refuses_long_image : (Instr.configLoadEnd (List.replicate 265 0)).wellFormed = false := by
  decide +kernel

theorem test_wellFormed_takes_whole_image : (Instr.configLoadEnd (List.replicate 264 0)).wellFormed = true := by
  decide +kernel

theorem test_wellFormed_refuses_good_frame_as_bad :
    (Instr.badFrame (Frame.bytes ⟨0, 0, .ack⟩)).wellFormed = false := by decide +kernel

theorem test_wellFormed_refuses_defined_command : (Instr.unknownCommand 0 0x5D 1).wellFormed = false := by decide +kernel

theorem test_wellFormed_refuses_position_8 : (Instr.seekExhausted 0 8).wellFormed = false := by decide +kernel

theorem test_wellFormed_refuses_124_pairs :
    (Instr.setup 0 0 (tagOn .a 0) 0 0 .shared 1 1 (List.replicate 124 (0, 0))).wellFormed = false := by decide +kernel

theorem test_wellFormed_refuses_lanes_with_far_port_reason :
    (Instr.refuse 0 0 (tagOn .a 0) .farPortLimit [1]).wellFormed = false := by decide +kernel

theorem test_wellFormed_refuses_lane_reason_without_lanes :
    (Instr.refuse 0 0 (tagOn .a 0) .laneConflict []).wellFormed = false := by decide +kernel

/-! ### Commands against the manual's tables and examples -/

/-- The check of "123456789" with generator x^16 + x^12 + x^5 + 1 from all ones (R126) is the well-known 0x29B1. -/
theorem test_crc_of_digits : crc [0x31, 0x32, 0x33, 0x34, 0x35, 0x36, 0x37, 0x38, 0x39] = 0x29B1#16 := by
  decide +kernel

/-- R128: TRAINED(A4.1, position 2, FAIL), seq 5, ack 9, written out field by field. -/
theorem test_trained_frame_bytes :
    (Frame.checked ⟨5, 9, .msg (.trained ⟨.a, 4, 1⟩ 2 false)⟩)
      = [0x13, 0x05, 0x09, 0x04, 0x00, 0x41, 0x02, 0x01] := by decide +kernel

/-- R1, R177: device reset leaves the lanes OFFLINE, the load in progress and the present hosts READY. -/
theorem test_deviceReset :
    let t := after (.deviceReset .b (Table.fill 6 false) (Table.fill 6 true)) (up .a)
    t.side = .b ∧ t.loading = true ∧ (t.port 5).link = .ready ∧ t.trunk = .down ∧ (t.port 0).steering = false := by
  decide +kernel

/-- The image of the manual's example: Q = 80, H = 90, strike limit 9, floor of H1 6, ceiling of H1 4. -/
def exampleImage : List Byte :=
  let body : List Byte := [0xA5, 0x5A, 0xC3, 0x3C, 0x01, 0x05, 0x04, 0, 0, 80, 0x05, 0, 0, 90, 0x06, 0, 0, 9,
    0x11, 0, 0, 6, 0x19, 0, 0, 4]
  body ++ halfBytes (crc body)

/-- R179's example: the values after the load and the four entries it makes. -/
theorem test_configLoadEnd_example :
    let t := after (.configLoadEnd exampleImage) (State.afterReset .a (Table.fill 6 true) (Table.fill 6 true))
    t.params.qualify = 80 ∧ t.params.hold = 64 ∧ t.params.strikeLimit = 3 ∧ t.params.floors.get 1 = 0
      ∧ t.params.ceilings.get 1 = 4
      ∧ t.ring.map (fun e => (e.seq, e.kind, e.detail)) = [(0, .paramDefaulted, 0x0106), (1, .paramDefaulted, 0x0105),
          (2, .paramDefaulted, 0x0111), (3, .configLoaded, 5)]
      ∧ (t.port 3).cursor = 0 ∧ t.trunk = .joining := by
  decide +kernel

/-- R177: a memory that gives no byte leaves the line high: CONFIG_DEFAULTED with cause 1. -/
theorem test_configLoadEnd_no_response :
    (after (.configLoadEnd []) State.reset).ring.map (fun e => (e.kind, e.detail)) = [(.configDefaulted, 1)] := by
  decide +kernel

/-- R177: the load reads with 0x03 and three address bytes of 0, and clocks in header, records and check. -/
theorem test_configLoadEnd_port :
    (after (.configLoadEnd exampleImage) State.reset).configPort = ⟨[0x03, 0, 0, 0], 28⟩
      ∧ (after (.configLoadEnd []) State.reset).configPort = ⟨[0x03, 0, 0, 0], 6⟩ := by decide +kernel

theorem test_hostArrival : ((after (.hostArrival 2) (State.afterReset .a (Table.fill 6 false) (Table.fill 6 false))).port
    2).link = .ready := by decide +kernel

/-- R47: a departing host's PROPOSED circuit is closed with WITHDRAWN, and its entry goes. -/
theorem test_hostDeparture_withdraws_proposal :
    let s := owned 3 .claimed (cur 0) { (up .a).setCircuit 0 (circ .proposed .origin (tagOn .a 0) [held 0 3]) with
      queue := [entry 7 (some 0) 5] }
    let t := after (.hostDeparture 0) s
    (t.port 0).link = .absent ∧ t.queue = [] ∧ (t.circuit 0).map (·.closeReason) = some (some .withdrawn)
      ∧ (t.lane 3).state = .releasing ∧ t.placed = [.close (tagOn .a 0) .withdrawn] := by decide +kernel

/-- R150, R151: the second request of the manual's port example sets REJECTED and leaves the first dispatched. -/
theorem test_writeRequest_rejected_while_working :
    let s := busy 2 0x5A false [] (ask 2 .openCircuit 9 [4, 1, 3, 2, 10] (up .a))
    let t := after (.writeRequest 2 [2, 0x06, 1]) s
    (t.port 2).rejected = true ∧ (t.port 2).link = .working ⟨.openCircuit, 9, [4, 1, 3, 2, 10]⟩ := by decide +kernel

/-- R153: a request frame of the wrong length is answered BAD_REQUEST by the port itself. -/
theorem test_writeRequest_wrong_length :
    ((after (.writeRequest 0 [4, 0x06, 1, 0, 0]) (busy 0 0x5A false [] (up .a))).port 0).link
      = .replied ⟨0x06, 1, .badRequest, []⟩ := by decide +kernel

/-- R158: a reply read to its last byte leaves; one read short stays. -/
theorem test_readReply_in_full_and_short :
    let s := busy 0 0x5B false [3, 6, 1, 0] ((up .a).modPort 0 fun p => { p with link := .replied ⟨6, 1, .ok, []⟩ })
    ((after (.readReply 0 4) s).port 0).link = .ready ∧ ((after (.readReply 0 3) s).port 0).link = .replied ⟨6, 1, .ok, []⟩ := by
  decide +kernel

/-- R159, R161: CIRCUIT_UP(C5, ORIGIN, 9, 3) of the port example, read in full. -/
theorem test_readNotice_circuit_up :
    let s := (up .a).modPort 2 fun p => { p with notices := [.circuitUp 5 .origin (some 9) 3] }
    let t := after (.readNotice 2 7) (after (.commandByte 2 0x5C) s)
    (t.port 2).shiftOut = [0x05, 0x06, 0x01, 0x05, 0x00, 0x01, 0x09, 0x03] ∧ (t.port 2).notices = [] := by decide +kernel

/-- R149: a departure does not change the frame being shifted, and the transaction has no effect at its end. -/
theorem test_readNotice_departed :
    let s := (up .a).modPort 2 fun p => { p with notices := [.trunkUp] }
    let t := after (.readNotice 2 3) (after (.hostDeparture 2) (after (.commandByte 2 0x5C) s))
    (t.port 2).shiftOut = [0x05, 1, 8, 0] ∧ (t.port 2).transaction = none := by decide +kernel

theorem test_unknownCommand_shifts_zeros :
    ((after (.unknownCommand 1 0x00 2) (after (.commandByte 1 0x00) (up .a))).port 1).shiftOut = [1, 0, 0] := by
  decide +kernel

/-- R53 to R60: the manual's pool example: an entry of width 3 is served from the head of the pool. -/
theorem test_openCircuit_pool_example :
    let t := after (.openCircuit 0) (ask 0 .openCircuit 9 [4, 1, 3, 2, 10] (pooled [0, 1, 2, 3, 4, 5, 6, 7] (up .a)))
    t.pool = [3, 4, 5, 6, 7] ∧ (t.lane 1).state = .claimed ∧ (t.lane 2).place = some ⟨0, .current, 2⟩
      ∧ (t.port 0).link = .replied ⟨0x01, 9, .proceeding, [0, 0, 0, 3]⟩ := by decide +kernel

/-- R55: an OPEN with minimum width above its requested width. -/
theorem test_openCircuit_bad_request :
    ((after (.openCircuit 0) (ask 0 .openCircuit 9 [4, 1, 3, 4, 10] (up .a))).port 0).link
      = .replied ⟨0x01, 9, .badRequest, []⟩ := by decide +kernel

theorem test_closeRequest_not_yours :
    ((after (.closeRequest 3) (ask 3 .close 1 [0]
      ((up .a).setCircuit 0 (circ .up .origin (tagOn .a 0) [held 0 3])))).port 3).link
      = .replied ⟨0x02, 1, .notYours, []⟩ := by decide +kernel

theorem test_withdraw_waiting_entry :
    (after (.withdraw 0) (ask 0 .withdraw 1 [7] { up .a with queue := [entry 6 none 3, entry 7 none 3] })).queue
      = [entry 6 none 3] := by decide +kernel

/-- R49: a VACANT slot is reported with its generation alone. -/
theorem test_circuitStatus_vacant :
    ((after (.circuitStatus 0) (ask 0 .circuitStatus 1 [15] (up .a))).port 0).link
      = .replied ⟨0x04, 1, .ok, [0, 0]⟩ := by decide +kernel

/-- R157: the layout of LANE_STATUS: a QUARANTINED lane with a local fence, age 50 and fail count 1. -/
theorem test_laneStatus_layout :
    let s := (up .a).modLane 4 fun l => { l with state := .quarantined, localFence := true, age := some 50, failCount := 1 }
    ((after (.laneStatus 0) (ask 0 .laneStatus 1 [4] s)).port 0).link
      = .replied ⟨0x05, 1, .ok, [8] ++ List.replicate 15 0 ++ [0, 1, 0, 0, 1, 50, 1, 0, 0, 0] ++ List.replicate 10 0⟩ := by
  decide +kernel

/-- R157: TRUNK_STATUS of an UP trunk after device reset's counts. -/
theorem test_trunkStatus_layout :
    ((after (.trunkStatus 0) (ask 0 .trunkStatus 1 [] (up .a))).port 0).link
      = .replied ⟨0x06, 1, .ok, [2, 0, 0, 0, 0, 0, 0, 0, 0, 0, 0, 0xFF, 0xFF, 0xFF, 1, 0xFF, 0xFF, 0xFF, 0, 0, 0]⟩ := by
  decide +kernel

/-- The fault log's example: a ring of 32 entries from 100, with H3's cursor left at 96. -/
def slowReader : State :=
  { up .a with
    ring := (List.range 32).map fun n => ⟨BitVec.ofNat 16 (100 + n), 0, 0, .laneFenced, none, none, 0⟩, nextEntry := 132 }

/-- R172's example: LOG_GAP with 4 lost entries, and the cursor at 104. -/
theorem test_readLog_gap_example :
    let s := slowReader.modPort 3 fun p => { p with cursor := 96 }
    let t := after (.readLog 3) (ask 3 .readLog 1 [4] s)
    (t.port 3).cursor = 104
      ∧ (match (t.port 3).link with | .replied r => (r.status, r.results.take 5) | _ => (.ok, [])) = (.logGap, [0, 4, 4, 0, 100]) := by
  decide +kernel

/-- R175: Q's default reads as 96. -/
theorem test_readParam_qualify :
    ((after (.readParam 0) (ask 0 .readParam 1 [0x04] (up .a))).port 0).link
      = .replied ⟨0x08, 1, .ok, [0x04, 0, 0, 96]⟩ := by decide +kernel

/-- R182, R101: a strike limit lowered to 2 leaves an ACTIVE lane with 2 strikes at 1. -/
theorem test_writeParam_clamps_strikes :
    let s := (up .a).modLane 4 fun l => { l with state := .active, strikes := 2 }
    let t := after (.writeParam 0) (ask 0 .writeParam 1 [0x06, 0, 0, 2] s)
    t.params.strikeLimit = 2 ∧ (t.lane 4).strikes = 1 := by decide +kernel

/-- R182: H above the present Q is BAD_VALUE. -/
theorem test_writeParam_hold_above_qualify :
    ((after (.writeParam 0) (ask 0 .writeParam 1 [0x05, 0, 0, 97] (up .a))).port 0).link
      = .replied ⟨0x09, 1, .badValue, []⟩ := by decide +kernel

/-- R11, R17: FENCE_LANE of a FREE lane. -/
theorem test_fenceLane_free :
    let t := after (.fenceLane 0) (ask 0 .fenceLane 1 [2] (pooled [1, 2, 3] (up .a)))
    t.pool = [1, 3] ∧ (t.lane 2).state = .quarantined ∧ (t.lane 2).age = some 50 ∧ (t.lane 2).failCount = 1
      ∧ t.placed = [.fence 2 (.failure .host)] := by decide +kernel

/-- R118: FENCE_LANE for an accepted setup-phase spare at the answering side sends FENCE alone. -/
theorem test_fenceLane_accepted_spare :
    let s := ask 2 .fenceLane 1 [5] (owned 5 .training (cur 0) ((up .b).setCircuit 0
      (circ .training .answer (tagOn .a 0) [{ held 0 5 with repair := .replacing }])))
    (after (.fenceLane 2) s).placed = [.fence 5 (.failure .host)] := by decide +kernel

/-- R18: UNFENCE_LANE returns a QUARANTINED lane to the pool tail with its fail count 0. -/
theorem test_unfenceLane_to_pool_tail :
    let s := (pooled [5] (up .a)).modLane 2 fun l =>
      { l with state := .quarantined, localFence := true, age := some 9, failCount := 3 }
    let t := after (.unfenceLane 0) (ask 0 .unfenceLane 1 [2] s)
    t.pool = [5, 2] ∧ (t.lane 2).failCount = 0 ∧ (t.lane 2).age = none ∧ t.placed = [.unfence 2] := by decide +kernel

theorem test_restartTrunk_from_up :
    let t := after (.restartTrunk 0) (ask 0 .restartTrunk 1 [] (pooled [1] (up .a)))
    t.trunk = .lost ∧ t.lastLoss = some .restart ∧ t.pool = [] ∧ (t.lane 1).state = .offline := by decide +kernel

theorem test_badFrame_counted : (after (.badFrame [0xC6, 0x02]) (up .a)).badFrames = 1 := by decide +kernel

/-- R19, R141: a READY JOIN takes side B UP: its pool runs from T23 down. -/
theorem test_join_up_side_b :
    let s := { up .b with trunk := .joining, joinMask := some 0x00000F#24 }
    let t := after (.join 0 0 ⟨.a, true, false, 0x000007#24, 0x000002#24⟩) s
    t.trunk = .up ∧ t.pool = [2, 0] ∧ (t.lane 1).state = .quarantined ∧ (t.lane 3).state = .offline ∧ t.sessions = 1 := by
  decide +kernel

/-- R144: a JOIN of which a part had arrived at the loss is discarded, though the trunk is JOINING when it completes. -/
theorem test_join_part_received_at_loss :
    let t := after (.join 0 0 ⟨.b, true, false, 0, 0⟩) { up .a with trunk := .joining, partFrame := true }
    t.trunk = .joining ∧ t.peerHeard = false ∧ t.partFrame = false := by decide +kernel

/-- R127, R130, R144: a frame that makes the send queue overflow has just completed, so no part of another has arrived. -/
theorem test_overflow_by_frame_leaves_no_part :
    let t := after (.close 0 0 (tagOn .b 4) .hostClose) { up .a with
      outstanding := (List.range 8).map fun n => (BitVec.ofNat 6 (n + 8), .unfence 1), nextSeq := 16
      sendQueue := List.replicate 64 (.unfence 2) }
    t.trunk = .lost ∧ t.lastLoss = some .sendOverflow ∧ t.partFrame = false := by decide +kernel

theorem test_joinWhileUp_bare_loses_trunk :
    (after (.joinWhileUp 0 0 ⟨.b, false, false, 0, 0⟩) (up .a)).lastLoss = some .peerRestart := by decide +kernel

/-- R133's example: an ack of 11 removes the message with seq 10. -/
theorem test_ack_example :
    (after (.ack 0 11) { up .a with
      outstanding := [(10, .fence 7 (.failure .host)), (11, .unfence 1), (12, .unfence 2)], nextSeq := 13 }).outstanding
      = [(11, .unfence 1), (12, .unfence 2)] := by decide +kernel

/-- R34, R35: SETUP for two FREE lanes on the answering side. -/
theorem test_setup_accepted :
    let t := after (.setup 0 0 (tagOn .a 4) 1 0 .shared 2 1 [(0, 3), (1, 5)]) (pooled [3, 4, 5] (up .b))
    t.placed = [.accept (tagOn .a 4) 0] ∧ t.pool = [4] ∧ (t.lane 5).state = .training
      ∧ (t.lane 5).place = some ⟨0, .current, 1⟩ ∧ t.unit 0 = some ⟨3, .train, 1⟩ ∧ t.unit 1 = some ⟨5, .train, 1⟩ := by
  decide +kernel

/-- A PROPOSED circuit of side A in C0 with T0 and T1, and its entry. -/
def proposal : State :=
  owned 0 .claimed (cur 0) (owned 1 .claimed (cur 1)
    { (pooled [3, 4] (up .a)).setCircuit 0 (circ .proposed .origin (tagOn .a 0) [held 0 0, held 1 1]) with
      queue := [entry 7 (some 0) 5] })

/-- R30: ACCEPT starts the lanes' training and removes the entry. -/
theorem test_accept :
    let t := after (.accept 0 0 (tagOn .a 0) 6) proposal
    (t.circuit 0).map (fun x => (x.state, x.answerSlot)) = some (.training, some 6) ∧ t.queue = []
      ∧ (t.lane 1).state = .training ∧ t.unit 1 = some ⟨1, .train, 1⟩ := by decide +kernel

/-- R32's example: the listed lane goes to the tail, the other to the head, and the scan serves the entry again with the
lanes then at the head. -/
theorem test_refuse_lane_unavailable :
    let s := { proposal with queue := [{ entry 7 (some 0) 5 with arrival := 4 }] }
    let t := after (.refuse 0 0 (tagOn .a 0) .laneUnavailable [1]) s
    t.pool = [4, 1] ∧ (t.queue.map fun e => (e.conflicts, e.slot)) = [(1, some 0)] ∧ (t.slots.get 0).gen = 1
      ∧ (t.lane 0).place = some (cur 0) ∧ (t.lane 3).place = some (cur 1) := by decide +kernel

/-- An answering circuit of side B in C0, TRAINING, with T3 in TRAINING. -/
def answering : State :=
  owned 3 .training (cur 0) ((up .b).setCircuit 0 (circ .training .answer (tagOn .a 4) [held 0 3]))

/-- R37, R39: TRAINED(OK) for a QUALIFIED lane makes it ACTIVE, and the circuit UP. -/
theorem test_trained_completes_circuit :
    let s := answering.modLane 3 fun l => { l with state := .qualified }
    let t := after (.trained 0 0 (tagOn .a 4) 0 true) s
    (t.lane 3).state = .active ∧ (t.circuit 0).map (·.state) = some .up ∧ t.boundTo 3 = some (0, 0) := by decide +kernel

/-- An UP circuit of a side in C0 with T3 ACTIVE, and a pool. -/
def upCircuit (side : Side) (role : CircuitRole) (pool : List LaneId) : State :=
  owned 3 .active (cur 0) ((pooled pool (up side)).setCircuit 0 (circ .up role (tagOn .a 0) [held 0 3]))

/-- R110, R111, R114: LANE_FAIL at the origin starts a repair with the pool's head. -/
theorem test_laneFail_starts_repair :
    let t := after (.laneFail 0 0 (tagOn .a 0) 0 .lockLost) (upCircuit .a .origin [9, 8])
    (t.lane 3).peerFence = true ∧ (t.lane 9).state = .claimed ∧ (t.circuit 0).map (·.state) = some .repairing
      ∧ t.placed = [.amend (tagOn .a 0) 0 (some 9)] := by decide +kernel

/-- R116: AMEND for a FREE lane in the UP phase takes it as the replacement. -/
theorem test_amend_takes_replacement :
    let t := after (.amend 0 0 (tagOn .a 0) 0 (some 9)) (upCircuit .b .answer [8, 9])
    (t.lane 9).place = some ⟨0, .replacement, 0⟩ ∧ t.pool = [8] ∧ t.placed = [.amendReply (tagOn .a 0) 0 .ok] := by
  decide +kernel

/-- R116: AMEND for a CLAIMED lane is refused with LANE_CONFLICT by side A. -/
theorem test_amend_conflict_on_side_a :
    let s := owned 9 .claimed ⟨1, .current, 0⟩ ((up .a).setCircuit 0 (circ .up .answer (tagOn .b 2) [held 0 3]))
    (after (.amend 0 0 (tagOn .b 2) 0 (some 9)) s).placed = [.amendReply (tagOn .b 2) 0 .laneConflict] := by decide +kernel

/-- A repair of position 0 in PROPOSED with T9. -/
def proposedSpare : State :=
  owned 9 .claimed ⟨0, .replacement, 0⟩ ((up .a).setCircuit 0 (circ .repairing .origin (tagOn .a 0)
    [{ held 0 3 with repair := .proposed, replacement := some 9, attempts := 1 }]))

/-- R117: AMEND_REPLY(LANE_CONFLICT) returns the spare to the pool head, and the next pick takes it again. -/
theorem test_amendReply_conflict_picks_again :
    let t := after (.amendReply 0 0 (tagOn .a 0) 0 .laneConflict) proposedSpare
    (t.position 0 0).map (fun q => (q.attempts, q.replacement)) = some (2, some 9)
      ∧ t.placed = [.amend (tagOn .a 0) 0 (some 9)] := by decide +kernel

/-- R42: CLOSE frees the lane, is answered CLOSED and tells the host PEER_CLOSE. -/
theorem test_close_received :
    let t := after (.close 0 0 (tagOn .a 0) .hostClose) (upCircuit .b .answer [])
    (t.lane 3).state = .free ∧ t.pool = [3] ∧ t.placed = [.closed (tagOn .a 0)]
      ∧ (t.port 0).notices = [.circuitClosed 0 .peerClose] ∧ (t.slots.get 0).gen = 1 := by decide +kernel

theorem test_closed_completes :
    let s := owned 3 .releasing (cur 0) ((up .a).setCircuit 0
      { circ .closing .origin (tagOn .a 0) [held 0 3] with closeReason := some .hostClose })
    let t := after (.closed 0 0 (tagOn .a 0)) s
    t.pool = [3] ∧ (t.port 0).notices = [.circuitClosed 0 .hostClose] := by decide +kernel

theorem test_fence_of_free_lane :
    let t := after (.fence 0 0 2 .training) (pooled [1, 2] (up .a))
    t.pool = [1] ∧ (t.lane 2).state = .quarantined ∧ (t.lane 2).peerFence = true := by decide +kernel

theorem test_unfence_returns_lane :
    (after (.unfence 0 0 2) ((pooled [1] (up .a)).modLane 2 fun l =>
      { l with state := .quarantined, peerFence := true })).pool = [1, 2] := by decide +kernel

/-- R126: an ACK that waits is replaced in its place by a later one. -/
theorem test_frameTransmit_order :
    let s := { up .a with txFrames := queueFrame [⟨0, 1, .ack⟩, ⟨3, 1, .msg (.unfence 1)⟩] ⟨0, 2, .ack⟩ }
    (after .frameTransmit s).sending = some ⟨0, 2, .ack⟩ := by decide +kernel

theorem test_controlTick_sends_idle_ack :
    (after .controlTick { up .a with expectedSeq := 11 }).txFrames = [⟨0, 11, .ack⟩] := by decide +kernel

/-- R135's example: both outstanding messages are resent, and TCC_RETRANSMIT holds retry 1 and 2 messages. -/
theorem test_retransmit_example :
    let s := { up .a with outstanding := [(11, .unfence 1), (12, .unfence 2)], nextSeq := 13, mark := true }
    let t := after .retransmit s
    t.txFrames.map (·.seq) = [11, 12] ∧ t.retryCount = 1
      ∧ t.ring.map (fun e => (e.kind, e.detail)) = [(.tccRetransmit, 0x0102)] := by decide +kernel

theorem test_tccRetry_loses_trunk :
    (after .tccRetry { up .a with outstanding := [(11, .unfence 1)], nextSeq := 12, mark := true, retryCount := 4 }).lastLoss
      = some .tccRetry := by decide +kernel

theorem test_peerSilent_at_eighth_tick :
    (after .peerSilent { up .a with silenceCount := 7 }).lastLoss = some .peerSilent
      ∧ (after .controlTick { up .a with silenceCount := 6 }).trunk = .up := by decide +kernel

/-- R98's example: with all units busy, T9's request still queued counts a missed sweep. -/
theorem test_sweepTick_missed :
    let s := { onLanes [8, 9] (fun l => { l with state := .active }) (up .a) with
      units := Table.fill 4 (some ⟨0, .train, 1⟩), dwellQueue := [⟨9, .health, 0⟩] }
    let t := after .sweepTick s
    t.dwellQueue = [⟨9, .health, 0⟩, ⟨8, .health, 0⟩] ∧ (t.lane 9).missed = 1 ∧ (t.lane 8).missed = 0
      ∧ t.ring.map (fun e => (e.kind, e.detail)) = [(.sweepMissed, 1)] := by decide +kernel

theorem test_quarantineRelease :
    let s := (up .a).modLane 6 fun l => { l with state := .quarantined, localFence := true, age := some 1, failCount := 2 }
    let t := after (.quarantineRelease 6) s
    t.pool = [6] ∧ (t.lane 6).failCount = 2 ∧ t.ring.map (fun e => (e.kind, e.detail)) = [(.laneReleased, 2)]
      ∧ t.placed = [.unfence 6] := by decide +kernel

theorem test_openExpired :
    let t := after (.openExpired 0 7) { up .a with queue := [entry 7 none 1, entry 8 none 2] }
    t.queue = [entry 8 none 1] ∧ (t.port 0).notices = [.openExpired 7] := by decide +kernel

/-- A SEEKING position 1 of a circuit of width 2 and minimum width 1, at its last sweep, with the FAILING lane it holds. -/
def seeker (st : CircuitState) (lane : Option LaneId) : State :=
  let s := { (up .a).setCircuit 0 (circ st .origin (tagOn .a 0)
      [held 0 3, { hostLane := 1, current := lane, repair := .seeking, attempts := 1, patience := some 1 }]) with
    seeking := [(0, 1)] }
  onLanes lane.toList (fun l => { l with state := .failing, place := some (cur 1), failure := some .lockLost }) s

/-- R120, R121: the circuit narrows to width 1 and is UP again, and its FAILING lane is fenced. -/
theorem test_seekExhausted_narrows :
    let t := after (.seekExhausted 0 1) (seeker .repairing (some 6))
    (t.circuit 0).map (fun x => (x.state, x.width)) = some (.up, 1)
      ∧ t.placed = [.amend (tagOn .a 0) 1 none, .fence 6 (.failure .lockLost)]
      ∧ (t.port 0).notices = [.circuitNarrowed 0 1, .circuitRepaired 0] ∧ (t.lane 6).state = .quarantined := by
  decide +kernel

/-- R86's example, a search that rises: P7, P8, P9, P10, then CONFIRM at P8. -/
theorem test_search_that_rises :
    let start : TrainRec := ⟨1, .ascend, 7, 7, none, none, 0, 2⟩
    let r := [88, 104, 104, 97].foldl TrainRec.search start
    r.phase = .confirm ∧ r.current = 8 ∧ r.bestFom = some 104 := by decide +kernel

/-- R87's example, a fall below the start: 70, 64, NO_LOCK, then 82, 82, 60, then CONFIRM at P4. -/
theorem test_search_that_falls :
    let start : TrainRec := ⟨1, .ascend, 5, 5, none, none, 0, 2⟩
    let r := [70, 64, 0].foldl TrainRec.search start
    (r.phase = .descend ∧ r.current = 4 ∧ r.misses = 0)
      ∧ ([82, 82, 60].foldl TrainRec.search r).phase = .confirm ∧ ([82, 82, 60].foldl TrainRec.search r).current = 4 := by
  decide +kernel

/-- The strike-out example: 61 against H 64 is the first strike of T9, run 58. -/
theorem test_dwellResult_strike :
    let s := { (up .a).modLane 9 fun l => { l with state := .active, run := 58, fom := some 70 } with
      units := (Table.fill 4 none).set 2 (some ⟨9, .health, 58⟩) }
    let t := after (.dwellResult 2 (.fom 61)) s
    (t.lane 9).strikes = 1 ∧ (t.lane 9).fom = some 61 ∧ t.unit 2 = none ∧ (t.lane 9).run = 58 := by decide +kernel

/-- The units example's third event: T1's next TRAIN request passes T9's health request and takes the freed U1. -/
theorem test_dwellResult_train_passes_health :
    let s := { (up .a).modLane 1 fun l =>
        { l with state := .training, training := some ⟨1, .ascend, 5, 5, none, none, 0, 2⟩ } with
      units := ⟨[some ⟨0, .train, 0⟩, some ⟨1, .train, 0⟩, some ⟨2, .train, 0⟩, some ⟨8, .health, 0⟩], rfl⟩
      dwellQueue := [⟨9, .health, 0⟩] }
    let t := after (.dwellResult 1 (.fom 70)) s
    t.unit 1 = some ⟨1, .train, 0⟩ ∧ t.dwellQueue = [⟨9, .health, 0⟩] ∧ (t.lane 1).preset = some 6 := by decide +kernel

theorem test_lossOfLock :
    let t := after (.lossOfLock 3) (upCircuit .a .origin [9])
    (t.lane 3).state = .failing ∧ (t.lane 3).failure = some .lockLost ∧ (t.lane 9).state = .claimed := by decide +kernel

/-- R150: the status byte at the start of READ_STATUS in the port example: REPLIED with REJECTED set. -/
theorem test_commandByte_status :
    let s := (up .a).modPort 2 fun p => { p with link := .replied ⟨1, 9, .proceeding, []⟩, rejected := true }
    ((after (.commandByte 2 0x5D) s).port 2).shiftOut = [0x0B] := by decide +kernel

/-! ### States that meet the hypotheses of the statements

One theorem for each statement with hypotheses; each conjunct is a state and operands that meet the hypotheses of one
clause together, at the boundary values where clauses meet. -/

/-- A queue of three that wait: a SHARED entry to withdraw, a SHARED one, and behind it a RESERVED one of H0 for H2. -/
def scanned : State :=
  { pooled [4, 5] (up .a) with
    params := { floors := (Table.fill 6 0).set 0 2 }
    queue := [entry 9 none 3, { entry 1 none 3 with reserved := [0, 1] },
      { entry 2 none 3 with cls := .reserved, far := 2, reserved := [2, 3] }] }

/-- A proposal of side B refused with LANE_CONFLICT when T1 has been yielded already and the pool is too short. -/
def refusable : State :=
  { proposal with queue := [{ entry 7 (some 0) 5 with conflicts := 1 }] }

/-- A circuit of two positions in its setup phase: T5 QUALIFIED, T6 ACTIVE. -/
def nearlyUp (side : Side) (role : CircuitRole) : State :=
  owned 5 .qualified (cur 0) (owned 6 .active (cur 1)
    ((up side).setCircuit 0 (circ .training role (tagOn .a 0) [{ held 0 5 with repair := .replacing }, held 1 6])))

/-- A repair about to end: T3 FAILING with its reason, its replacement T9 QUALIFIED. -/
def switching (side : Side) (role : CircuitRole) (why : Option FailReason) : State :=
  (owned 9 .qualified ⟨0, .replacement, 0⟩ (owned 3 .failing (cur 0) ((up side).setCircuit 0
    (circ .repairing role (tagOn .a 0) [{ held 2 3 with repair := .replacing, replacement := some 9, attempts := 2 }])))).modLane 3
      fun l => { l with failure := why }

/-- A circuit in its setup phase with T3 in a state and a pool. -/
def setup (side : Side) (role : CircuitRole) (st : LaneState) (pool : List LaneId) : State :=
  owned 3 st (cur 0) ((pooled pool (up side)).setCircuit 0 (circ .training role (tagOn .a 0) [held 0 3]))

/-- Side B with a proposal of its own in C1 that claims T9, and an answering circuit in C0. -/
def crossing (st : CircuitState) (lane : LaneState) (held0 : Position) : State :=
  owned 9 .claimed ⟨1, .current, 0⟩ (owned 3 lane (cur 0) (((up .b).setCircuit 0 (circ st .answer (tagOn .a 0) [held0])).setCircuit 1
    (circ .proposed .origin (tagOn .b 1) [held 5 9])))

/-- An UP circuit with T3 clean, T6 with a failure reason and T7 fenced by the peer, all as one side's close finds them. -/
def mixed (st : CircuitState) (why : Option CloseReason) : State :=
  onLanes [7] (fun l => { l with peerFence := true }) (onLanes [6] (fun l => { l with failure := some .strikes })
    (owned 3 .releasing (cur 0) (owned 6 .releasing (cur 1) (owned 7 .releasing (cur 2) ((pooled [8] (up .a)).setCircuit 0
      { circ st .origin (tagOn .a 0) [held 0 3, held 1 6, held 2 7] with closeReason := why })))))

/-- A circuit in its setup phase whose position has lost its lane, with T9 proposed for it. -/
def setupSpare : State :=
  owned 9 .claimed ⟨0, .replacement, 0⟩ ((up .a).setCircuit 0 (circ .training .origin (tagOn .a 0)
    [{ hostLane := 0, repair := .proposed, replacement := some 9, attempts := 1 }]))

/-- An ACTIVE lane at a position whose replacement is proposed. -/
def repairing : State := owned 3 .active (cur 0) proposedSpare

theorem witness_StepTakesFront :
    ({ up .a with pending := [.controlTick, .sweepTick] }).pending = [.controlTick, .sweepTick]
      ∧ (up .a).pending = [] := by decide +kernel

theorem witness_CountsMoveAtTheirEvents :
    (∃ t, exec .sweepTick (up .a) = .next t ∧ t.sweepCount ≠ (up .a).sweepCount)
      ∧ (∀ side steer present, Instr.sweepTick ≠ .deviceReset side steer present) :=
  ⟨⟨_, rfl, by decide +kernel⟩, fun _ _ _ h => nomatch h⟩

/-- A lane whose missed sweeps are at their top and whose last good preset is known. -/
def veteran : State := (up .a).modLane 4 fun l => { l with lastGood := some 11, missed := 255 }

theorem witness_LaneHistoryKept :
    (∃ t, exec .sweepTick veteran = .next t) ∧ (veteran.lane 4).missed ≤ 255 ∧ (veteran.lane 4).lastGood ≠ none
      ∧ (∀ side steer present, Instr.sweepTick ≠ .deviceReset side steer present) :=
  ⟨⟨_, rfl⟩, by decide +kernel, by decide +kernel, fun _ _ _ h => nomatch h⟩

/-- A side with a unit at work on an ACTIVE lane's health. -/
def measuring : State :=
  { (up .a).modLane 9 fun l => { l with state := .active, strikes := 1 } with
    units := (Table.fill 4 none).set 2 (some ⟨9, .health, 0⟩) }

theorem witness_CommandsKeepTheRest :
    (∃ t, exec (Msg.command 0 0 (.unfence 1)) (up .a) = .next t)
      ∧ (∃ t, exec (.openCircuit 0) (ask 0 .openCircuit 9 [4, 1, 3, 2, 10] (up .a)) = .next t)
      ∧ (∃ t, exec (.lossOfLock 9) measuring = .next t) ∧ (∃ t, exec (.dwellResult 2 .noLock) measuring = .next t)
      ∧ measuring.unit 2 = some ⟨9, .health, 0⟩ ∧ (∃ t, exec .controlTick (up .a) = .next t)
      ∧ ∃ t, exec .sweepTick (up .a) = .next t :=
  ⟨⟨_, rfl⟩, ⟨_, rfl⟩, ⟨_, rfl⟩, ⟨_, rfl⟩, by decide +kernel, ⟨_, rfl⟩, ⟨_, rfl⟩⟩

theorem witness_ResetMeetsForms :
    ∃ s, s = State.afterReset .b (Table.fill 6 true) (Table.fill 6 true) := ⟨_, rfl⟩

theorem witness_ConfigLoadEnds :
    State.reset.loading = true
      ∧ (List.range 4).map (imageByte []) = [0xFF, 0xFF, 0xFF, 0xFF]
      ∧ (List.range 4).map (imageByte [0xA5, 0x5A, 0xC3, 0x3D]) ≠ [0xFF, 0xFF, 0xFF, 0xFF]
      ∧ (List.range 4).map (imageByte [0xA5, 0x5A, 0xC3, 0x3D]) ≠ [0xA5, 0x5A, 0xC3, 0x3C]
      ∧ imageByte [0xA5, 0x5A, 0xC3, 0x3C, 0x02] 4 ≠ 0x01
      ∧ 64 < (imageByte [0xA5, 0x5A, 0xC3, 0x3C, 0x01, 65] 5).toNat
      ∧ (imageByte [0xA5, 0x5A, 0xC3, 0x3C, 0x01, 64] 5).toNat ≤ 64
      ∧ (List.range 4).map (imageByte exampleImage) = [0xA5, 0x5A, 0xC3, 0x3C] ∧ imageByte exampleImage 4 = 0x01
      ∧ (imageByte exampleImage 5).toNat = 5
      ∧ crc ((List.range 26).map (imageByte exampleImage)) = halfOf (imageByte exampleImage 26) (imageByte exampleImage 27)
      ∧ crc ((List.range 26).map (imageByte (exampleImage.dropLast)))
          ≠ halfOf (imageByte exampleImage.dropLast 26) (imageByte exampleImage.dropLast 27)
      ∧ (∀ h, (Table.fill 6 0).get h = if (Params.write {} (.ceiling 1) 4).ceilings.get h < (Table.fill 6 0).get h then 0
          else (Table.fill 6 0).get h)
      ∧ paramOf 0x04 = some .qualify ∧ ParamId.inRange .qualify 90 = true ∧ paramOf 0x05 = some .hold
      ∧ ParamId.inRange .hold 90 = true := by decide +kernel

/-- A pool of two, with a command that waits. -/
def working : State := { pooled [2, 5] measuring with pending := [.dwellResult 2 (.fom 70)] }

theorem witness_StepKeepsPool : working.PoolMatches ∧ ∃ t, step working = .next t := ⟨by decide +kernel, _, rfl⟩

theorem witness_StepKeepsBuffers :
    (working.WindowKept ∧ working.LogKept ∧ working.Unmarked) ∧ ∃ t, step working = .next t :=
  ⟨by decide +kernel, _, rfl⟩

theorem witness_StepKeepsPorts : working.NoticesKept ∧ working.AbsentVoid ∧ ∃ t, step working = .next t := by
  have idle : ∀ h, (working.port h).transaction = none := by decide +kernel
  refine ⟨by decide +kernel, fun h tr e => ?_, _, rfl⟩
  rw [idle h] at e
  cases e

theorem witness_StepKeepsParameters : working.params.Legal ∧ ∃ t, step working = .next t := by
  refine ⟨?_, _, rfl⟩
  constructor <;> decide +kernel

theorem witness_StepKeepsDwells :
    (working.UnitsApart ∧ working.DwellsCurrent) ∧ ∃ t, step working = .next t := ⟨by decide +kernel, _, rfl⟩

theorem witness_FrameIsReceivedAsSent :
    delimiter ∉ ([0x00, 0xC5, 0xC7] : List Byte) ∧ (Msg.trained ⟨.a, 4, 1⟩ 2 false).fits = true := by decide +kernel

theorem witness_LineEvents :
    judge [0xC6, 0x02] = .bad ∧ State.reset.trunk = .down ∧ (up .a).trunk ≠ .down ∧ (up .a).txFrames = []
      ∧ { up .a with txFrames := [⟨0, 0, .ack⟩] }.txFrames = [⟨0, 0, .ack⟩]
      ∧ ((upCircuit .a .origin [9]).lane 3).state = .active ∧ ((switching .a .origin none).lane 3).state = .failing
      ∧ ((upCircuit .a .origin [9]).lane 3).place = some (cur 0)
      ∧ (∃ x, (upCircuit .a .origin [9]).circuit 0 = some x ∧ x.positions[0]? = some (held 0 3))
      ∧ (proposal.lane 0).state = .claimed ∧ (answering.lane 3).state = .training
      ∧ ((switching .a .origin none).lane 9).state = .qualified ∧ ((up .a).lane 0).state = .offline
      ∧ ((upCircuit .a .origin [9]).lane 9).state = .free ∧ ((mixed .closing none).lane 3).state = .releasing :=
  ⟨by decide +kernel, by decide +kernel, by decide +kernel, by decide +kernel, by decide +kernel, by decide +kernel,
    by decide +kernel, by decide +kernel, ⟨_, rfl, by decide +kernel⟩, by decide +kernel⟩

theorem witness_AttentionLine : (up .a).NoticesKept ∧ State.reset.NoticesKept ∧ (State.reset.port 0).link = .absent := by
  decide +kernel

/-- A port that holds a notice and a reply. -/
def replied : State :=
  (up .a).modPort 2 fun p => { p with link := .replied ⟨6, 1, .ok, []⟩, notices := [.trunkUp, .openExpired 7] }

theorem witness_CommandByteFixesFrame :
    (replied.port 2).link = .replied ⟨6, 1, .ok, []⟩ ∧ (∀ r, ((up .a).port 2).link ≠ .replied r)
      ∧ (replied.port 2).notices = [.trunkUp, .openExpired 7] ∧ ((up .a).port 2).notices = [] := by
  have h : ((up .a).port 2).link = .ready := by decide +kernel
  refine ⟨by decide +kernel, fun r => ?_, by decide +kernel, by decide +kernel⟩
  rw [h]
  exact fun h => nomatch h

theorem witness_WriteRequestJudged :
    let s := busy 2 0x5A false [] (up .a)
    (s.port 2).transaction = some ⟨0x5A, false, [], false⟩ ∧ (s.port 2).link = .ready ∧ s.loading = false
      ∧ (State.reset.port 2).link = .absent ∧ (replied.port 2).link = .replied ⟨6, 1, .ok, []⟩
      ∧ completeFrame [] = none ∧ completeFrame [2, 6] = none
      ∧ (∃ f, completeFrame [2, 0x06, 1] = some f ∧ reqKindOf f.kind = some .trunkStatus ∧ f.length = 2
          ∧ ReqKind.length .trunkStatus = 2 ∧ ReqKind.steeringOnly .trunkStatus = false)
      ∧ (∃ f, completeFrame [2, 0x0C, 1] = some f ∧ reqKindOf f.kind = some .restartTrunk
          ∧ ReqKind.steeringOnly .restartTrunk = true)
      ∧ (((up .a).modPort 2 fun p => { p with steering := false }).port 2).steering = false
      ∧ (∃ f, completeFrame [3, 0x06, 1, 0] = some f ∧ f.length ≠ ReqKind.length .trunkStatus)
      ∧ ∃ f, completeFrame [2, 0x0D, 1] = some f ∧ reqKindOf f.kind = none :=
  ⟨by decide +kernel, by decide +kernel, by decide +kernel, by decide +kernel, by decide +kernel, by decide +kernel,
    by decide +kernel, ⟨_, rfl, by decide +kernel⟩, ⟨_, rfl, by decide +kernel⟩, by decide +kernel,
    ⟨_, rfl, by decide +kernel⟩, ⟨_, rfl, by decide +kernel⟩⟩

theorem witness_ReadsEnd :
    ((busy 2 0x5B false [3, 6, 1, 0] replied).port 2).transaction = some ⟨0x5B, false, [3, 6, 1, 0], false⟩
      ∧ Reply.bytes ⟨6, 1, .ok, []⟩ = [3, 6, 1, 0] ∧ ((busy 2 0x5B false [0] (up .a)).port 2).transaction
          = some ⟨0x5B, false, [0], false⟩
      ∧ ((busy 2 0x5C false [1, 8] replied).port 2).transaction = some ⟨0x5C, false, [1, 8], false⟩
      ∧ (replied.port 2).notices = [.trunkUp, .openExpired 7] ∧ Notice.bytes .trunkUp = [1, 8]
      ∧ ((busy 2 0x5D false [2] replied).port 2).transaction = some ⟨0x5D, false, [byteOf (replied.port 2).notices.length], false⟩ := by
  decide +kernel

theorem witness_VoidAndUnknownTransactions :
    ((busy 0 0x5A true [] State.reset).port 0).transaction = some ⟨0x5A, true, [], true⟩
      ∧ ((busy 0 0x5B true [0] State.reset).port 0).transaction = some ⟨0x5B, true, [0], true⟩
      ∧ ((busy 0 0x5C true [0] State.reset).port 0).transaction = some ⟨0x5C, true, [0], true⟩
      ∧ ((busy 0 0x5D true [0] State.reset).port 0).transaction = some ⟨0x5D, true, [0], true⟩
      ∧ ((after (.hostDeparture 2) (busy 2 0x5B false [3, 6, 1, 0] replied)).port 2).transaction
          = some ⟨0x5B, true, [3, 6, 1, 0], false⟩
      ∧ ((after (.hostDeparture 2) (busy 2 0x5C false [1, 8] replied)).port 2).transaction = some ⟨0x5C, true, [1, 8], false⟩
      ∧ ((busy 0 0x59 false [] (up .a)).port 0).transaction = some ⟨0x59, false, [], false⟩
      ∧ ((busy 0 0x5E true [] State.reset).port 0).transaction = some ⟨0x5E, true, [], true⟩ := by decide +kernel

theorem witness_HostsComeAndGo :
    (State.reset.port 3).link = .absent ∧ (proposal.port 0).link ≠ .absent ∧ (∃ e ∈ proposal.queue, e.port = 0)
      ∧ proposal.Unmarked ∧ proposal.Room ((proposal.circuitsOf 0).length + proposal.queue.length)
      ∧ (∃ x, proposal.circuit 0 = some x ∧ x.near = 0 ∧ x.state = .proposed)
      ∧ (∃ x, (upCircuit .a .origin []).circuit 0 = some x ∧ x.near = 0 ∧ x.state = .up)
      ∧ ∃ x, (mixed .closing none).circuit 0 = some x ∧ x.near = 0 ∧ x.state = .closing :=
  ⟨by decide +kernel, by decide +kernel, by decide +kernel, by decide +kernel, by decide +kernel, ⟨_, rfl, rfl, rfl⟩,
    ⟨_, rfl, rfl, rfl⟩, _, rfl, rfl, rfl⟩

/-- A port that holds so many notices, the last of them as given. -/
def noticed (n : Nat) (last : Notice) : State :=
  (up .a).modPort 0 fun p => { p with notices := List.replicate (n - 1) .trunkUp ++ [last] }

theorem witness_NoticePlaced :
    (State.reset.port 0).link = .absent ∧ ((up .a).port 0).link ≠ .absent
      ∧ ((noticed 14 .trunkUp).port 0).notices.length < 15
      ∧ ((noticed 15 (.noticesLost 1)).port 0).notices = List.replicate 14 .trunkUp ++ [.noticesLost 1]
      ∧ ((noticed 15 (.noticesLost 1)).port 0).notices.length = 15
      ∧ ((noticed 16 (.noticesLost 255)).port 0).notices = List.replicate 15 .trunkUp ++ [.noticesLost 255]
      ∧ ((noticed 16 (.noticesLost 255)).port 0).notices.length = 16
      ∧ ((noticed 15 .trunkUp).port 0).notices = List.replicate 14 .trunkUp ++ [.trunkUp]
      ∧ ((noticed 15 .trunkUp).port 0).notices.length = 15 ∧ Notice.isMarker .trunkUp = false := by decide +kernel

theorem witness_StatusRequestsAnswer :
    (ask 0 .circuitStatus 1 [16] (up .a)).Asks 0 .circuitStatus 1 [16]
      ∧ (ask 0 .circuitStatus 1 [15] (up .a)).Asks 0 .circuitStatus 1 [15] ∧ (15#8).toNat = (15 : SlotId).val
      ∧ (ask 0 .laneStatus 1 [24] (up .a)).Asks 0 .laneStatus 1 [24]
      ∧ (ask 0 .laneStatus 1 [23] (up .a)).Asks 0 .laneStatus 1 [23] ∧ (23#8).toNat = (23 : LaneId).val
      ∧ (ask 0 .trunkStatus 1 [] (up .a)).Asks 0 .trunkStatus 1 [] := by decide +kernel

theorem witness_ReadParamAnswers :
    (ask 0 .readParam 1 [0x00] (up .a)).Asks 0 .readParam 1 [0x00] ∧ paramOf 0x00 = none
      ∧ (ask 0 .readParam 1 [0x04] (up .a)).Asks 0 .readParam 1 [0x04] ∧ paramOf 0x04 = some .qualify := by decide +kernel

theorem witness_ReadLogAnswers :
    (ask 3 .readLog 1 [0] slowReader).Asks 3 .readLog 1 [0] ∧ (ask 3 .readLog 1 [5] slowReader).Asks 3 .readLog 1 [5]
      ∧ (ask 3 .readLog 1 [1] slowReader).Asks 3 .readLog 1 [1] ∧ (ask 3 .readLog 1 [4] slowReader).Asks 3 .readLog 1 [4]
      ∧ slowReader.nextEntry - BitVec.ofNat 16 slowReader.ring.length = 100
      ∧ (132 - 100 : Half).toNat = slowReader.ring.length ∧ slowReader.ring.length < (133 - 100 : Half).toNat
      ∧ slowReader.ring.length < (99 - 100 : Half).toNat := by decide +kernel

theorem witness_WriteParamRefused :
    (ask 0 .writeParam 1 [0x00, 0, 0, 0] (up .a)).Asks 0 .writeParam 1 [0x00, 0, 0, 0] ∧ paramOf 0x00 = none
      ∧ paramOf 0x04 = some .qualify ∧ ParamId.inRange .qualify (maskOf 0 0 0) = false
      ∧ paramOf 0x05 = some .hold ∧ (up .a).params.qualify < (maskOf 0 0 97).toNat
      ∧ (maskOf 0 0 63).toNat < (up .a).params.hold
      ∧ paramOf 0x11 = some (.floor 1) ∧ (up .a).params.ceilings.get 1 < (maskOf 0 0 9).toNat
      ∧ paramOf 0x19 = some (.ceiling 1)
      ∧ (maskOf 0 0 1).toNat < ({ (up .a).params with floors := (Table.fill 6 0).set 1 2 }).floors.get 1
      ∧ (lanesOf (0x0000FF#24)).length < ((indexes 6).map ((Table.fill 6 2).set 1 8).get).sum
      ∧ paramOf 0x01 = some .enableMask
      ∧ (lanesOf (maskOf 0 0 1)).length < ((indexes 6).map (Table.fill 6 1).get).sum := by decide +kernel

theorem witness_WriteParamTaken :
    (ask 0 .writeParam 1 [0x06, 0, 0, 1] (up .a)).Asks 0 .writeParam 1 [0x06, 0, 0, 1]
      ∧ paramOf 0x06 = some .strikeLimit ∧ ParamId.inRange .strikeLimit (maskOf 0 0 1) = true
      ∧ (up .a).params.breaksJoint .strikeLimit (maskOf 0 0 1) = false
      ∧ (ask 0 .writeParam 1 [0x06, 0, 0, 1] (up .a)).Unmarked
      ∧ (∀ g, ParamId.strikeLimit ≠ .floor g) ∧ (∀ g, ParamId.strikeLimit ≠ .ceiling g) := by
  refine ⟨by decide +kernel, by decide +kernel, by decide +kernel, by decide +kernel, by decide +kernel, ?_, ?_⟩ <;>
    exact fun _ h => nomatch h

theorem witness_OpenRefused :
    (ask 0 .openCircuit 9 [6, 1, 8, 8, 15] (up .a)).Asks 0 .openCircuit 9 [6, 1, 8, 8, 15]
      ∧ (ask 0 .openCircuit 9 [5, 1, 8, 8, 15] (up .a)).Asks 0 .openCircuit 9 [5, 1, 8, 8, 15]
      ∧ (∃ e ∈ [entry 9 none 3], e.port = 0 ∧ e.tag = 9)
      ∧ State.reset.trunk ≠ .up ∧ (up .a).params.floors.get 0 < (1#8).toNat
      ∧ ({ (up .a).params with ceilings := Table.fill 6 7 }).ceilings.get 0 < (8#8).toNat
      ∧ 4 ≤ (({ up .a with queue := [entry 1 none 3, entry 2 none 3, entry 3 none 3, entry 4 none 3] } : State).circuitsOf 0).length
          + (({ up .a with queue := [entry 1 none 3, entry 2 none 3, entry 3 none 3, entry 4 none 3] } : State).waitingOf 0).length
      ∧ (({ up .a with queue := [{ entry 1 none 3 with reserved := [0] }] } : State).freeHostLanes 0).length < (8#8).toNat
      ∧ 12 ≤ (List.replicate 12 { entry 1 none 3 with port := 1 }).length := by decide +kernel

theorem witness_OpenQueued :
    let s := ask 0 .openCircuit 9 [1, 1, 2, 1, 1] { up .a with queue := [entry 7 none 3] }
    s.Asks 0 .openCircuit 9 [1, 1, 2, 1, 1]
      ∧ (∃ o, openParams [1, 1, 2, 1, 1] = some o ∧ s.openRefusal 0 9 o = none) ∧ s.pool = []
      ∧ (∀ e ∈ s.queue, 1 ≤ e.minWidth) ∧ s.Unmarked :=
  ⟨by decide +kernel, ⟨_, rfl, by decide +kernel⟩, by decide +kernel, by decide +kernel, by decide +kernel⟩

theorem witness_OpenServedAtOnce :
    let s := ask 0 .openCircuit 9 [4, 1, 3, 2, 10] (pooled [0, 1, 2, 3] (up .a))
    s.Asks 0 .openCircuit 9 [4, 1, 3, 2, 10]
      ∧ (∃ o, openParams [4, 1, 3, 2, 10] = some o ∧ s.openRefusal 0 9 o = none ∧ o.minWidth ≤ 3
          ∧ 3 = min o.reqWidth (min ((match o.cls with | .shared => s.params.ceilings.get 0 | .reserved => s.params.floors.get 0)
              - s.holdings 0) (s.usable 0)))
      ∧ s.queue = [] ∧ s.PoolMatches ∧ s.CanSend ∧ s.Unmarked ∧ s.vacantSlot = some 0 :=
  ⟨by decide +kernel, ⟨_, rfl, by decide +kernel⟩, by decide +kernel, by decide +kernel, by decide +kernel,
    by decide +kernel, by decide +kernel⟩

theorem witness_WithdrawAndCloseTaken :
    let s := ask 0 .withdraw 1 [7] proposal
    let u := ask 0 .withdraw 1 [7] { up .a with queue := [entry 7 none 3, entry 8 (some 0) 3] }
    s.Asks 0 .withdraw 1 [7] ∧ (∀ e ∈ s.queue, ¬ (e.port = 0 ∧ e.tag = 8))
      ∧ s.queue.find? (fun e => e.port = 0 ∧ e.tag = 7) = some (entry 7 (some 0) 5) ∧ s.circuit 0 ≠ none
      ∧ s.circuit 0 = some (circ .proposed .origin (tagOn .a 0) [held 0 0, held 1 1]) ∧ s.Unmarked
      ∧ s.Room (1 + s.queue.length) ∧ u.Asks 0 .withdraw 1 [7] ∧ u.Unmarked
      ∧ u.queue.find? (fun e => e.port = 0 ∧ e.tag = 7) = some (entry 7 none 3)
      ∧ (∀ o ∈ u.queue, o.slot = none → o.port = 0 ∧ o.tag = 7)
      ∧ (ask 0 .close 1 [16] (up .a)).Asks 0 .close 1 [16] ∧ (ask 0 .close 1 [15] (up .a)).Asks 0 .close 1 [15]
      ∧ (up .a).circuit 15 = none
      ∧ (ask 0 .close 1 [0] (upCircuit .a .origin [])).Room (1 + 0)
      ∧ (upCircuit .a .origin []).circuit 0 = some (circ .up .origin (tagOn .a 0) [held 0 3]) := by decide +kernel

theorem witness_ServiceScanOrder :
    let s := ask 0 .withdraw 1 [9] scanned
    let e := { entry 2 none 3 with cls := .reserved, far := 2, reserved := [2, 3] }
    let q := [{ entry 1 none 3 with reserved := [0, 1] }, e]
    s.Asks 0 .withdraw 1 [9] ∧ s.queue.find? (fun e => e.port = 0 ∧ e.tag = 9) = some (entry 9 none 3)
      ∧ q = s.queue.filter (fun o => decide (¬ (o.port = 0 ∧ o.tag = 9))) ∧ s.PoolMatches ∧ s.Unmarked ∧ s.Room q.length
      ∧ q[1]? = some e ∧ e.slot = none ∧ (∀ o ∈ q.take 1, ¬ (o.port = e.port ∧ o.far = e.far))
      ∧ (∀ o ∈ q.take 1, o.slot = none → o.cls = .shared) ∧ s.vacantSlot = some 0
      ∧ 2 = min e.reqWidth (min (s.params.floors.get e.port - s.holdings e.port) (s.usable e.port))
      ∧ 2 ≤ e.reserved.length ∧ 2 = s.pool.length
      ∧ (∃ o ∈ [entry 1 none 3, entry 2 none 3].take 1, o.port = 0 ∧ o.far = 1) := by decide +kernel

theorem witness_FenceLaneTaken :
    let s := ask 0 .fenceLane 1 [23] (up .a)
    s.Asks 0 .fenceLane 1 [23] ∧ s.Unmarked ∧ (ask 0 .fenceLane 1 [24] (up .a)).Asks 0 .fenceLane 1 [24]
      ∧ (s.lane 23).state = .offline ∧ ((pooled [23] s).lane 23).state = .free ∧ (s.lane 23).localFence = false
      ∧ s.sendQueue.length < Config.sendCapacity
      ∧ ((onLanes [23] (fun l => { l with state := .quarantined, localFence := true }) s).lane 23).localFence = true
      ∧ ((onLanes [23] (fun l => { l with state := .failing }) s).lane 23).state = .failing
      ∧ ((onLanes [23] (fun l => { l with state := .releasing }) s).lane 23).state = .releasing
      ∧ State.Asks (ask 0 .fenceLane 1 [3] (setup .a .origin .training [7])) 0 .fenceLane 1 [3]
      ∧ ((setup .a .origin .training [7]).lane 3).state = .training ∧ ((setup .a .origin .training [7]).lane 3).place = some (cur 0)
      ∧ (setup .a .origin .training [7]).circuit 0 = some (circ .training .origin (tagOn .a 0) [held 0 3])
      ∧ 3 ∉ (setup .a .origin .training [7]).pool ∧ (setup .a .origin .training [7]).Room 2
      ∧ (setup .a .origin .training []).pool = []
      ∧ (setupSpare.lane 9).place = some ⟨0, .replacement, 0⟩ ∧ (setupSpare.lane 9).state = .claimed ∧ setupSpare.Room 2
      ∧ 9 ∉ setupSpare.pool
      ∧ (setup .b .answer .qualified []).circuit 0 = some (circ .training .answer (tagOn .a 0) [held 0 3])
      ∧ ((setup .b .answer .qualified []).lane 3).state = .qualified ∧ (setup .b .answer .qualified []).Room 2
      ∧ (nearlyUp .b .answer).circuit 0
          = some (circ .training .answer (tagOn .a 0) [{ held 0 5 with repair := .replacing }, held 1 6])
      ∧ ((nearlyUp .b .answer).lane 5).state = .qualified ∧ (nearlyUp .b .answer).Room 2
      ∧ (repairing.lane 3).state = .active ∧ (repairing.lane 3).place = some (cur 0)
      ∧ ((upCircuit .a .origin [9]).lane 3).state = .active ∧ (upCircuit .a .origin [9]).Room 1
      ∧ 3 ∉ (upCircuit .a .origin [9]).pool
      ∧ (upCircuit .a .origin [9]).circuit 0 = some (circ .up .origin (tagOn .a 0) [held 0 3])
      ∧ (upCircuit .b .answer []).circuit 0 = some (circ .up .answer (tagOn .a 0) [held 0 3])
      ∧ ((setup .a .origin .active [7]).lane 3).state = .active ∧ (setup .a .origin .active [7]).Room 2
      ∧ ((setup .b .answer .active []).lane 3).state = .active ∧ (setup .b .answer .active []).Room 2 := by decide +kernel

theorem witness_UnfenceLaneTaken :
    let s := ask 0 .unfenceLane 1 [23] (onLanes [23] (fun l => { l with state := .quarantined, localFence := true }) (up .a))
    s.Asks 0 .unfenceLane 1 [23] ∧ s.Unmarked ∧ (s.lane 23).localFence = true
      ∧ s.sendQueue.length < Config.sendCapacity ∧ s.NobodyWaits ∧ (s.lane 23).state = .quarantined
      ∧ (s.lane 23).peerFence = false ∧ ((up .a).lane 23).localFence = false
      ∧ ((onLanes [23] (fun l => { l with peerFence := true }) s).lane 23).peerFence = true := by decide +kernel

theorem witness_RestartTrunkTaken :
    let s := ask 0 .restartTrunk 1 [] (up .a)
    s.Asks 0 .restartTrunk 1 [] ∧ s.Unmarked ∧ s.trunk = .up ∧ { s with trunk := .lost }.trunk = .lost
      ∧ { s with trunk := .joining }.trunk = .joining := by decide +kernel

theorem witness_JoinHandled :
    { up .a with trunk := .joining }.trunk = .joining ∧ (up .a).trunk = .up ∧ (up .a).side ≠ .b
      ∧ { up .a with trunk := .joining, clash := true }.clash = true ∧ (up .a).clash = false ∧ (up .a).partFrame = false
      ∧ { up .a with trunk := .joining, partFrame := true }.partFrame = true ∧ State.reset.trunk = .down
      ∧ { up .a with trunk := .lost }.trunk = .lost := by decide +kernel

theorem witness_TrunkGoesUp :
    let s := { up .a with trunk := .joining, queue := [entry 7 (some 0) 5] }
    s.trunk = .joining ∧ s.partFrame = false ∧ Side.b ≠ s.side ∧ s.joinMask = some 0xFFFFFF#24 ∧ s.fenceChanges = [] ∧ s.NobodyWaits ∧ s.Unmarked
      ∧ (s.port 0).link ≠ .absent := by decide +kernel

/-- A side with two messages outstanding. -/
def unacked : State := { up .a with outstanding := [(11, .unfence 1), (12, .unfence 2)], nextSeq := 13 }

theorem witness_AckRemovesPassed :
    State.reset.trunk = .down ∧ { up .a with trunk := .lost }.trunk = .lost ∧ (up .a).trunk = .up ∧ (up .a).outstanding = [] ∧ unacked.trunk = .up
      ∧ unacked.outstanding = [(11, .unfence 1), (12, .unfence 2)] ∧ (11 - 11 : Seq).toNat = 0
      ∧ (13 - 11 : Seq).toNat = unacked.outstanding.length ∧ unacked.outstanding.length < (14 - 11 : Seq).toNat
      ∧ unacked.outstanding.length < (10 - 11 : Seq).toNat ∧ unacked.outstanding.length ≤ Config.window := by decide +kernel

theorem witness_OutOfOrderDiscarded :
    State.reset.trunk = .down ∧ { up .a with trunk := .joining }.trunk = .joining ∧ unacked.trunk = .up ∧ (63 : Seq) ≠ unacked.expectedSeq ∧ (1 : Seq) ≠ unacked.expectedSeq := by
  decide +kernel

theorem witness_ControlTickWork :
    (up .a).controlTimer = .running 4 ∧ { up .a with trunk := .joining }.trunk = .joining
      ∧ { up .a with trunk := .lost }.trunk = .lost ∧ (up .a).trunk = .up ∧ (up .a).outstanding = []
      ∧ { up .a with silenceCount := 6 }.silenceCount + 1 < (up .a).params.silenceLimit ∧ (up .a).Unmarked := by decide +kernel

theorem witness_OutstandingResent :
    let s := { unacked with mark := true, retryCount := 3 }
    s.controlTimer = .running 4 ∧ s.trunk = .up ∧ s.silenceCount + 1 < s.params.silenceLimit ∧ s.outstanding ≠ []
      ∧ s.Unmarked ∧ s.mark = true ∧ s.retryCount + 1 ≤ s.params.retryLimit ∧ unacked.mark = false := by decide +kernel

theorem witness_TrunkLossClearsAll :
    let s := { upCircuit .a .origin [9] with silenceCount := 7 }
    let u := { unacked with mark := true, retryCount := 4 }
    s.controlTimer = .running 4 ∧ s.trunk = .up ∧ s.params.silenceLimit ≤ s.silenceCount + 1
      ∧ u.controlTimer = .running 4 ∧ u.trunk = .up ∧ u.silenceCount + 1 < u.params.silenceLimit ∧ u.outstanding ≠ []
      ∧ u.mark = true ∧ u.params.retryLimit < u.retryCount + 1 := by decide +kernel

/-- What every statement on an accepted message asks of the state it arrives in. -/
def Receives (s : State) : Prop := s.InOrder 0 ∧ s.Unmarked ∧ (s.counted 0).CanSend

/-- Four entries of H0, on three host lanes each. -/
def fourWait : List Entry := [1, 2, 3, 4].map fun n => { entry n none 3 with reserved := [0, 1, 2, 3, 4, 5, 6, 7] }

theorem witness_SetupRefused :
    let s := pooled [3] (up .b)
    let r := s.counted 0
    let absent := (s.modPort 0 fun p => { p with link := .absent }).counted 0
    let loaded := State.counted { s with queue := fourWait } 0
    let short := State.counted { s with queue := fourWait.take 3 } 0
    let full := State.counted { s with slots := Table.fill 16 ⟨0, some (circ .up .origin (tagOn .b 0) [])⟩ } 0
    Receives s ∧ (tagOn .b 4).side = r.side ∧ (tagOn .a 4).side ≠ r.side ∧ r.answers (tagOn .a 4) = false
      ∧ (answering.counted 0).answers (tagOn .a 4) = true ∧ setupIn 6 1 1 1 [(0, 3)] = none
      ∧ setupIn 0 1 9 1 [(0, 24)] = none ∧ setupIn 0 1 2 1 [] = none
      ∧ setupIn 0 1 1 1 [(0, 3)] = some ⟨0, 1, [3]⟩ ∧ setupIn 0 1 2 1 [(0, 3), (1, 5)] = some ⟨0, 1, [3, 5]⟩
      ∧ (absent.port 0).link = .absent ∧ absent.CanSend
      ∧ 4 ≤ (loaded.circuitsOf 0).length + (loaded.waitingOf 0).length
      ∧ (short.circuitsOf 0).length + (short.waitingOf 0).length = 3 ∧ (short.freeHostLanes 0).length < 1
      ∧ (∀ c, ({ full with slots := full.slots } : State).circuit c ≠ none)
      ∧ (r.lane 5).state ≠ .free ∧ (r.lane 5).state ≠ .claimed ∧ (r.lane 3).state = .free
      ∧ ((proposal.counted 0).lane 1).state = .claimed ∧ (proposal.counted 0).side = .a := by
  unfold Receives
  decide +kernel

theorem witness_SetupAccepted :
    let s := pooled [3, 4, 5] (up .b)
    let r := s.counted 0
    let k := crossing .up .active (held 0 3)
    let y := k.counted 0
    Receives s ∧ (tagOn .a 4).side ≠ r.side ∧ r.answers (tagOn .a 4) = false
      ∧ setupIn 1 0 2 1 [(0, 3), (1, 5)] = some ⟨1, 0, [3, 5]⟩ ∧ (r.port 1).link ≠ .absent
      ∧ (r.circuitsOf 1).length + (r.waitingOf 1).length < 4 ∧ 2 ≤ (r.freeHostLanes 1).length ∧ r.vacantSlot = some 0
      ∧ (∀ i ∈ [3, 5], (r.lane i).state = .free)
      ∧ Receives k ∧ y.answers (tagOn .a 4) = false ∧ setupIn 1 0 1 1 [(0, 9)] = some ⟨1, 0, [9]⟩
      ∧ y.vacantSlot = some 2 ∧ 1 ≤ (y.freeHostLanes 1).length ∧ (y.lane 9).state = .claimed ∧ y.side = .b := by
  unfold Receives
  decide +kernel

/-- The circuit of `proposal`. -/
def proposed : Circuit := circ .proposed .origin (tagOn .a 0) [held 0 0, held 1 1]

theorem witness_AcceptTaken :
    let r := proposal.counted 0
    Receives proposal ∧ r.matchTag (tagOn .a 1) = none ∧ r.matchTag (tagOn .a 0) = some (0, proposed)
      ∧ proposed.state = .proposed ∧ r.NobodyWaits ∧ (∀ p ∈ proposed.positions, p.current ≠ none) ∧ proposed.lanes.Nodup
      ∧ ((upCircuit .a .origin []).counted 0).matchTag (tagOn .a 0) = some (0, circ .up .origin (tagOn .a 0) [held 0 3]) := by
  unfold Receives
  decide +kernel

theorem witness_RefuseTaken :
    let r := refusable.counted 0
    let x := { circ .closing .origin (tagOn .a 0) [held 0 0] with closeReason := some .withdrawn }
    let k := owned 0 .releasing (cur 0) ((pooled [3] (up .a)).setCircuit 0 x)
    Receives refusable ∧ r.matchTag (tagOn .a 1) = none ∧ r.matchTag (tagOn .a 0) = some (0, proposed)
      ∧ proposed.state = .proposed ∧ r.NobodyWaits ∧ r.PoolMatches ∧ proposed.lanes.Nodup
      ∧ (∀ i ∈ proposed.lanes, (r.lane i).state = .claimed ∧ (r.lane i).Clean)
      ∧ r.entryOfSlot 0 = some { entry 7 (some 0) 5 with conflicts := 1 } ∧ (r.port 0).link ≠ .absent
      ∧ 1 + 1 < 3 ∧ r.Room 1
      ∧ 2 ≤ (State.freeHostLanes { r with slots := r.slots.set 0 ⟨(r.slots.get 0).gen + 1, none⟩ } 0).length
      ∧ (State.freeHostLanes { r with slots := r.slots.set 0 ⟨(r.slots.get 0).gen + 1, none⟩ } 0).length < 9
      ∧ ([1, 5] : List LaneId).Nodup ∧ [(1 : Byte), 5] = [1, 5].map (fun i : LaneId => byteOf i.val)
      ∧ ([1] : List LaneId) = [1, 5].filter (fun i => decide (i ∈ proposed.lanes))
      ∧ Receives k ∧ (k.counted 0).matchTag (tagOn .a 0) = some (0, x) ∧ (k.counted 0).NobodyWaits
      ∧ (k.counted 0).PoolMatches ∧ ∀ i ∈ x.lanes, ((k.counted 0).lane i).state = .releasing ∧ ((k.counted 0).lane i).Clean := by
  unfold Receives
  refine ⟨?_, ?_, ?_, ?_, ?_, ?_, ?_, ?_, ?_, ?_, ?_, ?_, ?_, ?_, ?_, ?_, ?_, ?_⟩ <;> decide +kernel

theorem witness_TrainedTaken :
    let r := answering.counted 0
    let x := circ .training .answer (tagOn .a 4) [held 0 3]
    let n := (nearlyUp .a .origin).counted 0
    let y := circ .training .origin (tagOn .a 0) [{ held 0 5 with repair := .replacing }, held 1 6]
    let w := (switching .a .origin (some .strikes)).counted 0
    let p : Position := { held 2 3 with repair := .replacing, replacement := some 9, attempts := 2 }
    Receives answering ∧ r.matchTag (tagOn .a 3) = none ∧ r.matchTag (tagOn .a 4) = some (0, x) ∧ x.live = true
      ∧ x.positions[(1#8).toNat]? = none ∧ x.positions[(0#8).toNat]? = some (held 0 3) ∧ (held 0 3).replacement = none
      ∧ (r.lane 3).state = .training ∧ (r.lane 3).place = some ⟨0, .current, (0#8).toNat⟩
      ∧ (∀ i ∈ (held 0 3).lanes, (((upCircuit .b .answer []).counted 0).lane i).state ≠ .training
          ∧ (((upCircuit .b .answer []).counted 0).lane i).state ≠ .qualified)
      ∧ (proposal.counted 0).matchTag (tagOn .a 0) = some (0, proposed)
      ∧ Receives (nearlyUp .a .origin) ∧ n.matchTag (tagOn .a 0) = some (0, y) ∧ (n.lane 5).state = .qualified
      ∧ (n.lane 5).place = some (cur 0) ∧ y.positions[(0#8).toNat]? = some { held 0 5 with repair := .replacing }
      ∧ n.OthersActive y (0#8).toNat ∧ (n.port 0).link ≠ .absent
      ∧ Receives (switching .a .origin (some .strikes)) ∧ w.matchTag (tagOn .a 0) = some (0, circ .repairing .origin (tagOn .a 0) [p])
      ∧ (w.lane 9).state = .qualified ∧ (w.lane 9).place = some ⟨0, .replacement, (0#8).toNat⟩
      ∧ (w.lane 3).state = .failing ∧ (w.lane 3).failure = some .strikes ∧ w.Room 1 ∧ p.dropped = false
      ∧ (((switching .a .origin none).counted 0).lane 3).failure = none := by
  unfold Receives
  refine ⟨?_, ?_, ?_, ?_, ?_, ?_, ?_, ?_, ?_, ?_, ?_, ?_, ?_, ?_, ?_, ?_, ?_, ?_⟩
  case refine_17 =>
    intro m q hm hq _
    match m, hm, hq with
    | 0, hm, _ => exact absurd rfl hm
    | 1, _, hq => cases hq; exact ⟨rfl, 6, rfl, by decide +kernel⟩
  all_goals decide +kernel

theorem witness_LaneFailTaken :
    let s := upCircuit .a .origin [9, 8]
    let r := s.counted 0
    let x := circ .up .origin (tagOn .a 0) [held 0 3]
    let u := setup .a .origin .training [9]
    let y := circ .training .origin (tagOn .a 0) [held 0 3]
    Receives s ∧ r.matchTag (tagOn .a 1) = none ∧ r.matchTag (tagOn .a 0) = some (0, x) ∧ x.role = .origin ∧ x.state = .up
      ∧ x.positions[(0#8).toNat]? = some (held 0 3) ∧ x.positions[(1#8).toNat]? = none ∧ (held 0 3).dropped = false
      ∧ (held 0 3).current = some 3 ∧ (held 0 3).repair = .none ∧ (held 0 3).attempts = 0 ∧ r.pool = [9, 8]
      ∧ 3 ∉ r.pool ∧ r.Room 1 ∧ ((upCircuit .a .origin []).counted 0).pool = []
      ∧ Receives u ∧ (u.counted 0).matchTag (tagOn .a 0) = some (0, y) ∧ 3 ∉ (u.counted 0).pool
      ∧ ((u.counted 0).lane 3).place = some ⟨0, .current, (0#8).toNat⟩
      ∧ (((up .a).setCircuit 0 (circ .up .origin (tagOn .a 0) [{ held 0 3 with dropped := true, current := none }])).position 0
          0).map (·.dropped) = some true
      ∧ ((proposedSpare.counted 0).position 0 0).map (·.repair) = some .proposed := by
  unfold Receives
  decide +kernel

theorem witness_AmendTaken :
    let s := upCircuit .b .answer [8, 9]
    let r := s.counted 0
    let x := circ .up .answer (tagOn .a 0) [held 0 3]
    let u := setup .b .answer .training [9]
    let y := (crossing .training .training (held 0 3)).counted 0
    Receives s ∧ r.matchTag (tagOn .a 1) = none ∧ r.matchTag (tagOn .a 0) = some (0, x) ∧ x.role = .answer ∧ x.live = true
      ∧ 24 ≤ (24#8).toNat ∧ x.positions[(1#8).toNat]? = none ∧ x.positions[(0#8).toNat]? = some (held 0 3)
      ∧ (held 0 3).dropped = false ∧ (23#8).toNat = (23 : LaneId).val ∧ (r.lane 23).state ≠ .free
      ∧ (r.lane 23).state ≠ .claimed ∧ (r.lane 9).state = .free ∧ x.state = .up ∧ (held 0 3).replacement = none
      ∧ ((proposal.counted 0).lane 1).state = .claimed ∧ (proposal.counted 0).side = .a
      ∧ r.NobodyWaits ∧ x.everUp = true ∧ (r.port 0).link ≠ .absent ∧ (r.port 0).notices.length < 14
      ∧ ((switching .b .answer (some .host)).counted 0).NobodyWaits
      ∧ (((switching .b .answer (some .host)).counted 0).lane 3).failure = some .host
      ∧ (((switching .b .answer none).counted 0).lane 9).Clean
      ∧ Receives u ∧ (u.counted 0).matchTag (tagOn .a 0) = some (0, circ .training .answer (tagOn .a 0) [held 0 3])
      ∧ ((u.counted 0).lane 9).state = .free ∧ ((u.counted 0).lane 3).failure = none
      ∧ ((u.counted 0).lane 3).place = some ⟨0, .current, (0#8).toNat⟩
      ∧ Receives (crossing .training .training (held 0 3)) ∧ (y.lane 9).state = .claimed ∧ y.side = .b
      ∧ (y.lane 9).place = some ⟨1, .current, 0⟩ ∧ Receives (crossing .up .active (held 0 3)) := by
  unfold Receives
  refine ⟨?_, ?_, ?_, ?_, ?_, ?_, ?_, ?_, ?_, ?_, ?_, ?_, ?_, ?_, ?_, ?_, ?_, ?_⟩ <;> decide +kernel

/-- A circuit with two positions whose AMEND is awaited and whose spares have left, the first out of attempts. -/
def unsparedCircuit : Circuit :=
  circ .repairing .origin (tagOn .a 0)
    [{ held 0 3 with repair := .proposed, attempts := 3 }, { held 1 4 with repair := .proposed, attempts := 1 }]

/-- A side with that circuit and a pool. -/
def unspared (pool : List LaneId) : State :=
  owned 3 .failing (cur 0) (owned 4 .failing (cur 1) ((pooled pool (up .a)).setCircuit 0 unsparedCircuit))

theorem witness_AmendReplyTaken :
    let p : Position := { held 0 3 with repair := .proposed, replacement := some 9, attempts := 1 }
    let q : Position := { hostLane := 0, repair := .proposed, replacement := some 9, attempts := 1 }
    Receives proposedSpare ∧ Receives setupSpare ∧ (proposedSpare.counted 0).matchTag (tagOn .a 1) = none
      ∧ (proposedSpare.counted 0).matchTag (tagOn .a 0) = some (0, circ .repairing .origin (tagOn .a 0) [p])
      ∧ (setupSpare.counted 0).matchTag (tagOn .a 0) = some (0, circ .training .origin (tagOn .a 0) [q])
      ∧ p.repair = .proposed ∧ p.replacement = some 9 ∧ q.repair = .proposed ∧ q.replacement = some 9
      ∧ ((proposedSpare.counted 0).lane 9).place = some ⟨0, .replacement, (0#8).toNat⟩
      ∧ ((setupSpare.counted 0).lane 9).place = some ⟨0, .replacement, (0#8).toNat⟩
      ∧ (held 0 3).repair ≠ .proposed
      ∧ (proposedSpare.counted 0).NobodyWaits ∧ (proposedSpare.counted 0).PoolMatches ∧ (proposedSpare.counted 0).Room 2
      ∧ (circ .repairing .origin (tagOn .a 0) [p]).lanes.Nodup ∧ ((proposedSpare.counted 0).lane 9).state = .claimed
      ∧ ((proposedSpare.counted 0).lane 9).Clean ∧ p.attempts < 3
      ∧ (circ .repairing .origin (tagOn .a 0) [p]).width - 1 < 1
      ∧ Receives (unspared []) ∧ Receives (unspared [9]) ∧ (unspared []).NobodyWaits ∧ (unspared [9]).PoolMatches
      ∧ ((unspared [9]).counted 0).matchTag (tagOn .a 0) = some (0, unsparedCircuit)
      ∧ unsparedCircuit.positions[(0#8).toNat]? = some { held 0 3 with repair := .proposed, attempts := 3 }
      ∧ unsparedCircuit.positions[(1#8).toNat]? = some { held 1 4 with repair := .proposed, attempts := 1 }
      ∧ (∀ j ∈ unsparedCircuit.lanes, (((unspared [9]).counted 0).lane j).state ≠ .free)
      ∧ unsparedCircuit.lanes.Nodup ∧ unsparedCircuit.minWidth ≤ unsparedCircuit.width - 1 := by
  unfold Receives
  refine ⟨?_, ?_, ?_, ?_, ?_, ?_, ?_, ?_, ?_, ?_, ?_, ?_, ?_⟩ <;> decide +kernel

/-- An UP circuit of which this side has begun a close. -/
def closing : State :=
  owned 3 .releasing (cur 0) ((up .a).setCircuit 0
    { circ .closing .origin (tagOn .a 0) [held 0 3] with closeReason := some .hostClose })

theorem witness_ClosesComplete :
    let k := mixed .closing (some .withdrawn)
    let r := k.counted 0
    let u := (mixed .up none).counted 0
    Receives closing ∧ (closing.counted 0).matchTag (tagOn .a 1) = none ∧ (closing.counted 0).NobodyWaits
      ∧ (∃ x, (closing.counted 0).matchTag (tagOn .a 0) = some (0, x) ∧ x.state = .closing)
      ∧ (∃ x, ((upCircuit .b .answer []).counted 0).matchTag (tagOn .a 0) = some (0, x) ∧ x.state ≠ .closing)
      ∧ ((upCircuit .b .answer []).counted 0).NobodyWaits
      ∧ Receives k ∧ r.NobodyWaits ∧ r.PoolMatches ∧ r.Room (3 + 1)
      ∧ (∃ x, r.matchTag (tagOn .a 0) = some (0, x) ∧ x.tag = tagOn .a 0 ∧ x.lanes = [3, 6, 7] ∧ x.lanes.Nodup
          ∧ x.lanes.filter (fun i => decide (r.lane i).Clean) = [3]
          ∧ ∀ i ∈ x.lanes, (r.lane i).state ≠ .free ∧ (r.lane i).state ≠ .quarantined)
      ∧ Receives (mixed .up none) ∧ ∃ x, u.matchTag (tagOn .a 0) = some (0, x) ∧ x.state = .up ∧ x.lanes = [3, 6, 7] := by
  unfold Receives
  refine ⟨?_, ?_, ?_, ⟨_, rfl, ?_⟩, ⟨_, rfl, ?_⟩, ?_, ?_, ?_, ?_, ?_, ⟨_, rfl, ?_⟩, ?_, _, rfl, ?_⟩ <;> decide +kernel

theorem witness_PeerFences :
    let s := onLanes [23] (fun l => { l with state := .quarantined, peerFence := true }) (pooled [1, 2] (up .a))
    let r := s.counted 0
    Receives s ∧ 24 ≤ (24#8).toNat ∧ (23#8).toNat = (23 : LaneId).val ∧ (r.lane 23).peerFence = true
      ∧ (r.lane 23).state = .quarantined ∧ (r.lane 23).localFence = false ∧ r.NobodyWaits
      ∧ (r.lane 2).peerFence = false ∧ (r.lane 2).state = .free ∧ (r.lane 5).peerFence = false
      ∧ (r.lane 5).state = .offline
      ∧ (({ s with lanes := s.lanes } : State).modLane 5 (fun l => { l with peerFence := true })).lane 5 =
          { s.lane 5 with peerFence := true }
      ∧ Receives (setup .b .answer .training []) ∧ Receives (setup .a .origin .qualified [7]) ∧ Receives setupSpare
      ∧ (((setup .b .answer .training []).counted 0).lane 3).state = .training
      ∧ ((setup .b .answer .training []).counted 0).circuit 0 = some (circ .training .answer (tagOn .a 0) [held 0 3])
      ∧ (((setup .a .origin .qualified [7]).counted 0).lane 3).state = .qualified
      ∧ (((setup .a .origin .qualified [7]).counted 0).lane 3).place = some (cur 0)
      ∧ ((setup .a .origin .qualified [7]).counted 0).circuit 0 = some (circ .training .origin (tagOn .a 0) [held 0 3])
      ∧ 3 ∉ ((setup .a .origin .qualified [7]).counted 0).pool ∧ ((setup .a .origin .qualified [7]).counted 0).Room 1
      ∧ ((setupSpare.counted 0).lane 9).place = some ⟨0, .replacement, 0⟩
      ∧ ((setupSpare.counted 0).lane 9).peerFence = false := by
  unfold Receives
  decide +kernel

/-- Some unit holds a dwell on a lane, as a check. -/
theorem exists_holds_lane (s : State) (i : LaneId) :
    (∃ w e, s.unit w = some e ∧ e.lane = i) ↔ ∃ w, (s.unit w).any (fun e => decide (e.lane = i)) = true := by
  simp [Option.any_eq_true]

theorem witness_HealthResultTaken :
    let q : State := { measuring with
      units := ⟨[some ⟨1, .train, 0⟩, none, some ⟨9, .health, 7⟩, some ⟨4, .train, 0⟩], rfl⟩,
      dwellQueue := [⟨2, .health, 0⟩, ⟨1, .train, 0⟩, ⟨5, .train, 0⟩] }
    let busy : LaneId → Prop := fun i => i = 1 ∨ i = 4
    let freed : State := { q with units := q.units.set 2 none }
    let x := circ .up .origin (tagOn .a 0) [held 0 9]
    let k := (owned 9 .active (cur 0) ((pooled [3] measuring).setCircuit 0 x)).modLane 9 fun l => { l with strikes := 2 }
    measuring.unit 2 = some ⟨9, .health, 0⟩ ∧ measuring.Unmarked ∧ measuring.dwellQueue = []
      ∧ (measuring.lane 9).run = 0 ∧ (measuring.lane 9).state = .active ∧ (1 : Byte) ≠ (measuring.lane 9).run
      ∧ measuring.params.hold ≤ (64#8).toNat ∧ (63#8).toNat < measuring.params.hold
      ∧ (measuring.lane 9).strikes + 1 < measuring.params.strikeLimit
      ∧ q.unit 2 = some ⟨9, .health, 7⟩ ∧ (7 : Byte) ≠ (q.lane 9).run ∧ freed.unit 1 = none
      ∧ (∀ w, w < 1 → freed.unit w ≠ none)
      ∧ q.dwellQueue = [⟨2, .health, 0⟩, ⟨1, .train, 0⟩] ++ ⟨5, .train, 0⟩ :: []
      ∧ (∀ i, busy i ↔ ∃ w e, freed.unit w = some e ∧ e.lane = i) ∧ ¬ busy 5
      ∧ (∀ e ∈ [(⟨2, .health, 0⟩ : Dwell), ⟨1, .train, 0⟩], e.purpose = .train → busy e.lane)
      ∧ k.unit 2 = some ⟨9, .health, 0⟩ ∧ (k.lane 9).run = 0 ∧ k.params.strikeLimit ≤ (k.lane 9).strikes + 1
      ∧ (k.lane 9).place = some (cur 0) ∧ k.circuit 0 = some x ∧ x.positions[0]? = some (held 0 9)
      ∧ ((held 0 9).repair = .none → (held 0 9).attempts = 0) ∧ 9 ∉ k.pool ∧ k.Room 1 := by
  refine ⟨?_, ?_, ?_, ?_, ?_, ?_, ?_, ?_, ?_, ?_, ?_, ?_, ?_, ?_, ?_, ?_, ?_, ?_⟩
  case refine_15 =>
    intro i
    rw [exists_holds_lane]
    revert i
    decide +kernel
  all_goals decide +kernel

/-- A lane in its first training attempt, in a phase, with its dwell in progress on U0. -/
def trainee (ph : Phase) : State :=
  { owned 3 .training (cur 0) ((up .a).setCircuit 0 (circ .training .origin (tagOn .a 0) [held 0 3])) with
    units := (Table.fill 4 none).set 0 (some ⟨3, .train, 0⟩) }.modLane 3 fun l =>
      { l with training := some ⟨1, ph, 5, 5, none, none, 0, 2⟩ }

theorem witness_TrainResultTaken :
    let late := (trainee .confirm).modLane 3 fun l => { l with training := some ⟨2, .confirm, 5, 5, some 5, some 90, 0, 2⟩ }
    let fall := (trainee .descend).modLane 3 fun l => { l with training := some ⟨1, .descend, 4, 5, some 5, some 70, 1, 2⟩ }
    (trainee .ascend).unit 0 = some ⟨3, .train, 0⟩ ∧ ((trainee .ascend).lane 3).run = 0
      ∧ ((trainee .ascend).lane 3).training = some ⟨1, .ascend, 5, 5, none, none, 0, 2⟩ ∧ (trainee .ascend).Unmarked
      ∧ (trainee .ascend).DwellsCurrent ∧ (trainee .ascend).dwellQueued 3 = false
      ∧ ((trainee .confirm).lane 3).training = some ⟨1, .confirm, 5, 5, none, none, 0, 2⟩
      ∧ (95#8).toNat < (trainee .confirm).params.qualify ∧ 1 < (trainee .confirm).params.trainAttempts
      ∧ fall.unit 0 = some ⟨3, .train, 0⟩ ∧ (fall.lane 3).training = some ⟨1, .descend, 4, 5, some 5, some 70, 1, 2⟩
      ∧ (70#8).toNat ≤ (70#8).toNat ∧ (70#8).toNat < (71#8).toNat
      ∧ late.unit 0 = some ⟨3, .train, 0⟩ ∧ late.Unmarked ∧ late.DwellsCurrent ∧ late.dwellQueued 3 = false
      ∧ late.params.trainAttempts ≤ 2 ∧ (late.lane 3).place = some (cur 0)
      ∧ late.circuit 0 = some (circ .training .origin (tagOn .a 0) [held 0 3])
      ∧ (circ .training .origin (tagOn .a 0) [held 0 3]).live = true ∧ 3 ∉ late.pool ∧ late.Room 3 ∧ late.pool = []
      ∧ { late with pool := [7] }.pool = [7] := by decide +kernel

theorem witness_ConfirmQualifies :
    let s := trainee .confirm
    let t := { s with lanes := s.lanes }.modLane 3 fun l => { l with peerTrained := true }
    let x := circ .training .origin (tagOn .a 0) [held 0 3]
    s.unit 0 = some ⟨3, .train, 0⟩ ∧ (s.lane 3).run = 0
      ∧ (s.lane 3).training = some ⟨1, .confirm, 5, 5, none, none, 0, 2⟩ ∧ s.params.qualify ≤ (96#8).toNat
      ∧ (s.lane 3).place = some (cur 0) ∧ s.circuit 0 = some x
      ∧ (s.lane 3).peerTrained = false ∧ s.Unmarked ∧ s.CanSend
      ∧ t.unit 0 = some ⟨3, .train, 0⟩ ∧ (t.lane 3).peerTrained = true ∧ (t.lane 3).state = .training
      ∧ (t.lane 3).training = some ⟨1, .confirm, 5, 5, none, none, 0, 2⟩ ∧ (t.lane 3).place = some (cur 0)
      ∧ x.positions[0]? = some (held 0 3) ∧ t.OthersActive x 0 ∧ (t.port 0).link ≠ .absent ∧ t.CanSend := by
  refine ⟨?_, ?_, ?_, ?_, ?_, ?_, ?_, ?_, ?_, ?_, ?_, ?_, ?_, ?_, ?_, ?_, ?_⟩
  case refine_16 =>
    intro m q hm hq _
    match m, hm, hq with
    | 0, hm, _ => exact absurd rfl hm
  all_goals decide +kernel

theorem witness_LossOfLockTaken :
    let s := upCircuit .a .origin [9]
    let u := setup .b .answer .active []
    ((up .a).lane 3).state ≠ .active ∧ (repairing.lane 3).state = .active ∧ repairing.Unmarked
      ∧ (repairing.lane 3).place = some (cur 0)
      ∧ (∃ x, repairing.circuit 0 = some x ∧ x.state = .repairing ∧ ∃ p, x.positions[0]? = some p ∧ p.repair ≠ .none)
      ∧ (s.lane 3).state = .active ∧ s.Unmarked ∧ (s.lane 3).place = some (cur 0)
      ∧ s.circuit 0 = some (circ .up .origin (tagOn .a 0) [held 0 3]) ∧ 3 ∉ s.pool ∧ s.Room 1 ∧ (s.port 0).link ≠ .absent
      ∧ s.pool = [9] ∧ (upCircuit .b .answer []).circuit 0 = some (circ .up .answer (tagOn .a 0) [held 0 3])
      ∧ (u.lane 3).state = .active ∧ u.Unmarked ∧ (u.lane 3).place = some (cur 0)
      ∧ u.circuit 0 = some (circ .training .answer (tagOn .a 0) [held 0 3]) ∧ 3 ∉ u.pool ∧ u.Room 2
      ∧ ((setup .a .origin .active [7]).lane 3).state = .active ∧ (setup .a .origin .active [7]).pool = [7] :=
  ⟨by decide +kernel, by decide +kernel, by decide +kernel, by decide +kernel,
    ⟨_, rfl, by decide +kernel, _, rfl, by decide +kernel⟩, by decide +kernel⟩

/-- A lane whose health request is still queued, with its missed sweeps at their top. -/
def overdue : State :=
  { (up .a).modLane 4 fun l => { l with state := .active, missed := 255 } with dwellQueue := [⟨4, .health, 0⟩] }

theorem witness_SweepTickWork :
    let s := (up .a).modLane 4 fun l => { l with state := .active }
    (up .a).sweepTimer = .running 20 ∧ { up .a with trunk := .lost }.trunk ≠ .up ∧ (up .a).NobodyWaits ∧ (up .a).Unmarked
      ∧ (∀ i, ((up .a).lane i).state ≠ .active) ∧ s.sweepTimer = .running 20 ∧ s.trunk = .up ∧ s.NobodyWaits ∧ s.Unmarked
      ∧ (∀ j, (s.lane j).localFence = false) ∧ (s.lane 4).state = .active ∧ s.dwellQueue = []
      ∧ (indexes 24).filter (fun i => decide ((s.lane i).state = .active) && s.dwellQueued i) = []
      ∧ (indexes 24).filter (fun i => decide (((overdue.lane i).state = .active)) && overdue.dwellQueued i) = [4]
      ∧ overdue.NobodyWaits ∧ overdue.Unmarked ∧ (∀ j, (overdue.lane j).localFence = false)
      ∧ (overdue.lane 4).missed = 255 := by decide +kernel

theorem witness_QuarantineReleased :
    let s := onLanes [6] (fun l => { l with state := .quarantined, localFence := true, age := some 1, failCount := 2 }) (up .a)
    let t := onLanes [6] (fun l => { l with peerFence := true }) s
    s.sweepTimer = .running 20 ∧ s.trunk = .up ∧ (s.lane 6).localFence = true ∧ (s.lane 6).age = some 1 ∧ s.NobodyWaits
      ∧ s.Unmarked ∧ s.CanSend ∧ (s.lane 6).state = .quarantined ∧ (s.lane 6).peerFence = false
      ∧ (t.lane 6).peerFence = true ∧ t.CanSend := by decide +kernel

theorem witness_OpenExpires :
    let s := { up .a with queue := [entry 7 none 1, entry 5 (some 0) 1, entry 8 none 4] }
    let t := { s with trunk := .lost }
    s.sweepTimer = .running 20 ∧ s.seeking = [] ∧ s.Unmarked ∧ (∀ j, (s.lane j).localFence = false) ∧ s.trunk = .up
      ∧ s.Room s.queue.length ∧ t.trunk ≠ .up ∧ (s.port 0).link ≠ .absent
      ∧ s.queue.filter (fun e => decide (e.slot = none) && decide (e.patience ≤ 1)) = [entry 7 none 1]
      ∧ s.queue.filterMap (fun e =>
          if e.slot ≠ none then some e
          else if e.patience ≤ 1 then none
          else some { e with patience := e.patience - 1 }) = [entry 5 (some 0) 1, entry 8 none 3] := by decide +kernel

theorem witness_SeekExhausts :
    let s := seeker .repairing (some 6)
    let p : Position := { hostLane := 1, current := some 6, repair := .seeking, attempts := 1, patience := some 1 }
    let x := circ .repairing .origin (tagOn .a 0) [held 0 3, p]
    let u := seeker .training none
    let y := { u with slots := u.slots.set 0 ⟨0, some { x with minWidth := 2 }⟩ }
    s.sweepTimer = .running 20 ∧ s.seeking = [(0, (1#8).toNat)] ∧ s.circuit 0 = some x
      ∧ x.state = .repairing ∧ x.role = .origin ∧ x.positions[(1#8).toNat]? = some p ∧ p.repair = .seeking
      ∧ p.patience = some 1 ∧ p.dropped = false ∧ p.replacement = none ∧ x.minWidth ≤ x.width - 1
      ∧ (∀ e ∈ s.queue, e.slot ≠ none) ∧ s.Unmarked ∧ s.CanSend ∧ (∀ j, (s.lane j).localFence = false)
      ∧ x.everUp = true ∧ (s.port 0).link ≠ .absent ∧ (s.port 0).notices.length < 14
      ∧ (s.lane 6).failure = some .lockLost
      ∧ u.circuit 0 = some (circ .training .origin (tagOn .a 0) [held 0 3, { p with current := none }])
      ∧ y.circuit 0 = some { x with minWidth := 2 } ∧ x.width - 1 < 2 ∧ y.CanSend ∧ y.seeking = [(0, 1)] := by decide +kernel

end Sys2Proof.Tests
end

section
/-! SUPPORT. Sys2Proof/Proofs/Pool: R5, the pool is the FREE lanes after every step. -/

namespace Sys2Proof.Machine

open Sys2Proof

/-- R5: the pool's form survives a change of lane records that keeps every lane's state. -/
theorem State.poolMatches_mapLanes (s : State) (f : Lane → Lane) (hf : ∀ l, (f l).state = l.state)
    (h : s.PoolMatches) : State.PoolMatches { s with lanes := s.lanes.map f } := by
  refine h.congr rfl fun i => ?_
  simp [State.lane, hf]

theorem mem_sideOrder (d : Side) (i : LaneId) : i ∈ sideOrder d := by
  cases d <;> simp [sideOrder]

theorem sideOrder_nodup (d : Side) : (sideOrder d).Nodup := by
  cases d
  · exact indexes_nodup 24
  · exact List.nodup_reverse.mpr (indexes_nodup 24)

/-- R19: a rebuilt pool is listed from the lanes' states, whatever stood before. -/
theorem State.poolMatches_rebuildLanes (s : State) : s.rebuildLanes.PoolMatches := by
  unfold State.rebuildLanes
  dsimp only
  generalize List.foldl _ s (indexes 24) = u
  refine ⟨(sideOrder_nodup u.side).filter _, fun i => ?_⟩
  change i ∈ (sideOrder u.side).filter (fun i => (u.lane i).state == .free) ↔ (u.lane i).state = .free
  simp [mem_sideOrder]

theorem State.poolMatches_afterReset (side : Side) (steer present : Table 6 Bool) :
    (State.afterReset side steer present).PoolMatches :=
  ⟨List.nodup_nil, fun i => by simp [State.afterReset, State.lane]⟩

/-- Every command keeps the pool equal to the FREE lanes. -/
theorem keptByEvents_poolMatches : KeptByEvents State.PoolMatches where
  k := kept_poolMatches
  ev _ _ _ _ _ _ _ _ _ _ _ _ _ _ _ _ _ h := h
  config _ _ h := h
  freeUnit _ _ h := h
  lane' s i f hf h := s.poolMatches_modLane i f (fun l => (hf l).1) h
  lanes s f hf h := s.poolMatches_mapLanes f (fun l => (hf l).1) h
  session _ h := h
  rebuild s _ := s.poolMatches_rebuildLanes
  reset side steer present _ _ := State.poolMatches_afterReset side steer present

/-- Settles O8: the pool's form is one that the shared work and every command's own updates keep. -/
theorem stepKeepsPool : Obligations.StepKeepsPool := by
  intro s t h e
  unfold step at e
  split at e
  · cases e; exact h
  · rename_i c rest _
    exact keptByEvents_poolMatches.exec_keeps (s := { s with pending := rest }) h c t e

end Sys2Proof.Machine
end

section
/-! SUPPORT. Sys2Proof/Proofs/Reset: what device reset leaves (R177), the forms it meets, and the status requests
(R21, R49, R147, R157). -/

namespace Sys2Proof.Machine

open Sys2Proof

/-! ### Device reset (R177) -/

@[simp] theorem State.lane_afterReset (side : Side) (steer present : Table 6 Bool) (i : LaneId) :
    (State.afterReset side steer present).lane i = {} := by
  simp [State.afterReset, State.lane]

@[simp] theorem State.unit_afterReset (side : Side) (steer present : Table 6 Bool) (u : UnitId) :
    (State.afterReset side steer present).unit u = none := by
  simp [State.afterReset, State.unit]

@[simp] theorem State.slot_afterReset (side : Side) (steer present : Table 6 Bool) (c : SlotId) :
    (State.afterReset side steer present).slots.get c = {} := by
  simp [State.afterReset]

@[simp] theorem State.port_afterReset (side : Side) (steer present : Table 6 Bool) (h : PortId) :
    (State.afterReset side steer present).port h = Port.atReset (steer.get h) (present.get h) := by
  simp [State.afterReset, State.port, Table.get, indexes]

/-- R175: the built-in defaults are legal. -/
theorem Params.legal_default : Params.Legal {} := by
  constructor <;> decide

/-- Settles O5: the lanes, slots, units and ports are those of `State.afterReset`, every other field is written there. -/
theorem resetValues : Obligations.ResetValues := by
  intro side steer present s
  let t : State := { State.afterReset side steer present with pending := s.pending, losses := s.losses }
  have lane : ∀ i, t.lane i = {} := State.lane_afterReset side steer present
  have port : ∀ h, t.port h = Port.atReset (steer.get h) (present.get h) := State.port_afterReset side steer present
  refine ⟨t, rfl, rfl, rfl, rfl, fun i => ?_, rfl, State.slot_afterReset side steer present, rfl, rfl,
    State.unit_afterReset side steer present, rfl, rfl, rfl, rfl, rfl, rfl, rfl, rfl, rfl, rfl, rfl, rfl, rfl, rfl, rfl,
    rfl, rfl, rfl, rfl, rfl, rfl, rfl, rfl, fun h => ?_⟩
  · rw [lane i]
  · rw [port h]
    exact ⟨rfl, rfl, rfl, rfl⟩

/-- Settles O6: every table and list of the reset state is empty, so that each form speaks of nothing. -/
theorem resetMeetsForms : Obligations.ResetMeetsForms := by
  rintro side steer present s rfl
  have window : (State.afterReset side steer present).WindowKept := ⟨Nat.zero_le _, Nat.zero_le _, rfl⟩
  have notices : (State.afterReset side steer present).NoticesKept := by
    intro h
    rw [State.port_afterReset]
    exact ⟨by simp [noticesKept, Port.atReset], fun _ => ⟨rfl, rfl⟩⟩
  have units : (State.afterReset side steer present).UnitsApart := by
    rw [State.unitsApart_iff]
    simp
  have dwells : (State.afterReset side steer present).DwellsCurrent := ⟨List.nodup_nil, fun _ m => nomatch m⟩
  have void : (State.afterReset side steer present).AbsentVoid := by
    intro h tr e
    rw [State.port_afterReset] at e
    cases e
  exact ⟨State.poolMatches_afterReset side steer present, window, ⟨Nat.zero_le _, rfl⟩, notices, Params.legal_default,
    units, dwells, void, rfl⟩

/-! ### Bytes that name lanes and slots -/

theorem laneOfByte_of_lt {b : Byte} {i : LaneId} (h : b.toNat = i.val) : laneOfByte b = some i := by
  have lt : b.toNat < 24 := h ▸ i.isLt
  simp only [laneOfByte, lt, dif_pos, Option.some.injEq]
  exact Fin.ext h

theorem laneOfByte_of_ge {b : Byte} (h : 24 ≤ b.toNat) : laneOfByte b = none := by
  simp [laneOfByte, Nat.not_lt.mpr h]

theorem slotOfByte_of_lt {b : Byte} {c : SlotId} (h : b.toNat = c.val) : slotOfByte b = some c := by
  have lt : b.toNat < 16 := h ▸ c.isLt
  simp only [slotOfByte, lt, dif_pos, Option.some.injEq]
  exact Fin.ext h

theorem slotOfByte_of_ge {b : Byte} (h : 16 ≤ b.toNat) : slotOfByte b = none := by
  simp [slotOfByte, Nat.not_lt.mpr h]

/-- The byte of the number a byte names is that byte. -/
theorem byteOf_of_toNat {b : Byte} {n : Nat} (h : b.toNat = n) : byteOf n = b := by
  rw [byteOf, ← h, BitVec.ofNat_toNat, BitVec.setWidth_eq]

/-! ### The lengths of the layouts (R157) -/

@[simp] theorem length_optByte (v : Option Byte) : (optByte v).length = 2 := by cases v <;> rfl

@[simp] theorem length_optTag (t : Option Tag) : (optTag t).length = 3 := by cases t <;> rfl

@[simp] theorem length_tagBytes (t : Tag) : (tagBytes t).length = 2 := rfl

@[simp] theorem length_maskBytes (m : Mask) : (maskBytes m).length = 3 := rfl

@[simp] theorem length_halfBytes (h : Half) : (halfBytes h).length = 2 := rfl

@[simp] theorem length_trainingBytes (r : Option TrainRec) : (trainingBytes r).length = 10 := by
  cases r <;> simp [trainingBytes]

@[simp] theorem Position.length_bytes (q : Position) : q.bytes.length = 10 := by simp [Position.bytes]

theorem length_flatMap_positionBytes (ps : List Position) : (ps.flatMap Position.bytes).length = 10 * ps.length := by
  induction ps with
  | nil => rfl
  | cons q ps ih => simp [ih]; ring

theorem Circuit.length_bytes (g : Gen) (x : Circuit) : (x.bytes g).length = 20 + 10 * x.positions.length := by
  simp only [Circuit.bytes, List.length_append, length_flatMap_positionBytes, length_optByte, length_tagBytes,
    List.length_cons, List.length_nil]

theorem Lane.length_bytes (l : Lane) (t : Option Tag) : (l.bytes t).length = 36 := by
  simp [Lane.bytes]

theorem State.length_trunkBytes (s : State) : s.trunkBytes.length = 21 := by
  unfold State.trunkBytes
  split <;> simp

/-- Settles O23: each request is taken by its owner, which replies with the record the byte names. -/
theorem statusRequestsAnswer : Obligations.StatusRequestsAnswer := by
  refine ⟨fun s h tag b => ⟨fun asks => ?_, fun asks => ?_, fun asks => ?_⟩, fun _ => rfl, Circuit.length_bytes,
    Lane.length_bytes, State.length_trunkBytes⟩
  · have taken : exec (.circuitStatus h) s = .next (s.takeCircuitStatus h [b]) :=
      congrArg Host.Outcome.next (State.takeRequest_of_asks asks _)
    rw [taken]
    refine ⟨fun big => ?_, fun c e => ?_⟩
    · simp only [State.takeCircuitStatus, slotOfByte_of_ge big, State.reply_of_asks asks]
    · simp only [State.takeCircuitStatus, slotOfByte_of_lt e, State.reply_of_asks asks]
  · have taken : exec (.laneStatus h) s = .next (s.takeLaneStatus h [b]) :=
      congrArg Host.Outcome.next (State.takeRequest_of_asks asks _)
    rw [taken]
    refine ⟨fun big => ?_, fun i e => ?_⟩
    · simp only [State.takeLaneStatus, laneOfByte_of_ge big, State.reply_of_asks asks]
    · simp only [State.takeLaneStatus, laneOfByte_of_lt e, State.reply_of_asks asks]
  · rw [← State.reply_of_asks asks]
    exact congrArg Host.Outcome.next (State.takeRequest_of_asks asks _)

end Sys2Proof.Machine
end

section
/-! SUPPORT. Sys2Proof/Proofs/History: what a lane remembers through every command but device reset: its last good
preset and its missed sweeps (R1, R107). -/

namespace Sys2Proof.Machine

open Sys2Proof

/-- R1, R107: lane `i` of `s` still has a last good preset if the record `o` had one, and no fewer missed sweeps. -/
def State.Remembers (o : Lane) (i : LaneId) (s : State) : Prop :=
  (o.lastGood ≠ none → (s.lane i).lastGood ≠ none) ∧ o.missed ≤ (s.lane i).missed

/-- A property of what `State.Within` keeps is kept by the shared work. -/
theorem kept_of_within {P : State → Prop} (h : ∀ s t : State, s.Within t → P s → P t) : Kept P where
  rest s _ _ _ _ _ _ _ _ _ _ _ _ _ p := h s _ ((kept_within s).rest s _ _ _ _ _ _ _ _ _ _ _ _ _ (.refl s)) p
  place s m room p := h s _ ((kept_within s).place s m room (.refl s)) p
  out s m rest e room p := h s _ ((kept_within s).out s m rest e room (.refl s)) p
  passed s n le p := h s _ ((kept_within s).passed s n le (.refl s)) p
  dropped s p := h s _ ((kept_within s).dropped s (.refl s)) p
  part s b n p := h s _ ((kept_within s).part s b n (.refl s)) p
  log s k l t d p := h s _ ((kept_within s).log s k l t d (.refl s)) p
  notify s g n p := h s _ ((kept_within s).notify s g n (.refl s)) p
  lane s i f hf p := h s _ ((kept_within s).lane s i f hf (.refl s)) p
  moveLane s i st ne p := h s _ ((kept_within s).moveLane s i st ne (.refl s)) p
  freeLane e s i p := h s _ ((kept_within s).freeLane e s i (.refl s)) p
  rerun s i p := h s _ ((kept_within s).rerun s i (.refl s)) p
  requestDwell s i q p := h s _ ((kept_within s).requestDwell s i q (.refl s)) p
  grantOne s t e p := h s t ((kept_within s).grantOne s t e (.refl s)) p
  lanesOffline s p := h s _ ((kept_within s).lanesOffline s (.refl s)) p

theorem kept_remembers (o : Lane) (i : LaneId) : Kept (State.Remembers o i) :=
  kept_of_within fun s t w p => by
    obtain ⟨good, missed⟩ := p
    exact ⟨by rw [w.lastGood]; exact good, by rw [w.missed]; exact missed⟩

namespace State.Remembers

variable {o : Lane} {i : LaneId} {s : State}

/-- Memory is about the lane records alone. -/
theorem congr {t : State} (h : s.Remembers o i) (e : t.lanes = s.lanes) : t.Remembers o i := by
  unfold State.Remembers State.lane
  rw [e]
  exact h

/-- A record keeps the memory when its last good preset goes on and its missed sweeps do not fall below `o`'s. -/
theorem modLane (h : s.Remembers o i) (j : LaneId) (f : Lane → Lane)
    (hf : ∀ l : Lane, (l.lastGood ≠ none → (f l).lastGood ≠ none) ∧ (o.missed ≤ l.missed → o.missed ≤ (f l).missed)) :
    (s.modLane j f).Remembers o i := by
  unfold State.Remembers
  rw [State.lane_modLane]
  split
  · rename_i e
    subst e
    exact ⟨fun g => (hf _).1 (h.1 g), (hf _).2 h.2⟩
  · exact h

/-- Every record changed by `f` under the same terms. -/
theorem mapLanes (h : s.Remembers o i) (f : Lane → Lane)
    (hf : ∀ l : Lane, (f l).lastGood = l.lastGood ∧ (f l).missed = l.missed) :
    State.Remembers o i { s with lanes := s.lanes.map f } := by
  unfold State.Remembers State.lane
  rw [Table.get_map, (hf _).1, (hf _).2]
  exact h

theorem sendTrained (h : s.Remembers o i) (j : LaneId) (ok : Bool) : (s.sendTrained j ok).Remembers o i := by
  unfold State.sendTrained
  split
  · exact (kept_remembers o i).send h _
  · exact h

/-! ### The trunk -/

theorem rebuildLanes (h : s.Remembers o i) : s.rebuildLanes.Remembers o i := by
  have one : ∀ (u : State) (j : LaneId) (e f : Bool), u.Remembers o i →
      ((u.modLane j (rebuiltLane e f)).cancelDwell j).Remembers o i := by
    intro u j e f g
    refine modLane g j _ fun l => ?_
    unfold rebuiltLane
    dsimp only
    repeat' split
    all_goals exact ⟨id, id⟩
  have all := (kept_remembers o i).foldl _ (fun u j g => one u j (u.enabledMask.getLsbD j.val)
    ((s.peerFences.getD 0).getLsbD j.val) g) (indexes 24) h
  exact all.congr rfl

theorem goUp (h : s.Remembers o i) : s.goUp.Remembers o i := by
  have k := kept_remembers o i
  have changes : ∀ u : State, u.Remembers o i → u.sendFenceChanges.Remembers o i := by
    intro u g
    have each : ∀ (v : State) (j : LaneId), v.Remembers o i → (v.sendFenceChange j).Remembers o i := by
      intro v j g
      unfold State.sendFenceChange
      split <;> exact k.send g _
    exact (k.foldl State.sendFenceChange each _ g).congr rfl
  have joined : (s.openSession.sendJoin true true).Remembers o i := h.congr rfl
  unfold State.goUp
  exact k.notifyAll (rebuildLanes (changes _ (k.log _ _ _ _ _ joined))) _

theorem discardFrame (h : s.Remembers o i) : s.discardFrame.Remembers o i := by
  unfold State.discardFrame
  split <;> exact h.congr rfl

theorem receiveJoin (h : s.Remembers o i) (j : JoinInfo) : (s.receiveJoin j).Remembers o i := by
  have k := kept_remembers o i
  have lost : ∀ (u : State) r, u.lanes = s.lanes → (u.goLost r).finish.Remembers o i :=
    fun u r e => k.finish (k.goLost (h.congr e) r)
  unfold State.receiveJoin
  split
  · split
    · exact h.discardFrame
    · unfold State.joinWhileJoining
      dsimp only
      split
      · split <;> exact h.congr rfl
      · split
        · exact k.finish (goUp (h.congr rfl))
        · exact h.congr rfl
  · unfold State.joinUp
    dsimp only
    split
    · exact lost _ .sideClash rfl
    · split
      · exact h.congr rfl
      · split
        · exact h.congr rfl
        · exact lost _ .peerRestart rfl
  · exact h
  · exact h.discardFrame

theorem idleAck (h : s.Remembers o i) : s.idleAck.Remembers o i := by
  unfold State.idleAck
  dsimp only
  split <;> exact h.congr rfl

/-- R135: a resend hands frames to the transmitter and changes no lane. -/
theorem retransmitAll (h : s.Remembers o i) : s.retransmitAll.Remembers o i := by
  have resent : s.resend.Remembers o i :=
    (kept_remembers o i).foldl _ (fun _ _ g => (kept_remembers o i).hand g _ _) _ ((kept_remembers o i).dropFrames h _)
  exact resent.congr rfl

theorem retryTick (h : s.Remembers o i) : s.retryTick.Remembers o i := by
  have retried : State.Remembers o i { s with retryCount := s.retryCount + 1 } := h.congr rfl
  unfold State.retryTick
  dsimp only
  split
  · exact idleAck (h.congr rfl)
  · split
    · exact idleAck (h.congr rfl)
    · split
      · exact (kept_remembers o i).goLost retried _
      · exact retried.retransmitAll.idleAck

theorem upTick (h : s.Remembers o i) : s.upTick.Remembers o i := by
  have counted : State.Remembers o i { s with silenceCount := s.silenceCount + 1 } := h.congr rfl
  unfold State.upTick
  dsimp only
  split
  · exact (kept_remembers o i).goLost counted _
  · exact counted.retryTick

theorem controlTickIf (h : s.Remembers o i) (due : Bool) : (s.controlTickIf due).Remembers o i := by
  unfold State.controlTickIf State.controlTicked
  dsimp only
  split
  · split
    · exact h.congr rfl
    · exact h.congr rfl
    · exact (kept_remembers o i).finish (upTick (h.congr rfl))
    · exact h.congr rfl
  · exact h

/-! ### The sweep tick -/

/-- R98: a missed sweep is counted, up to 255. -/
theorem healthRequest (le : o.missed ≤ 255) (h : s.Remembers o i) (j : LaneId) :
    (s.healthRequest j).Remembers o i := by
  unfold State.healthRequest
  split
  · refine modLane h j _ fun l => ⟨id, fun g => ?_⟩
    simp only [satSucc]
    omega
  · exact (kept_remembers o i).requestDwell s j _ h

theorem sweepTickIf (le : o.missed ≤ 255) (h : s.Remembers o i) (due : Bool) :
    (s.sweepTickIf due).Remembers o i := by
  have k := kept_remembers o i
  unfold State.sweepTickIf
  split
  · have counted : s.sweepReleased.countSeeking.countPatience.Remembers o i :=
      k.countPatience (k.countSeeking (k.reportGrowth (k.countAges (s := s.sweepBegin) (h.congr rfl))))
    refine k.finish ?_
    generalize s.sweepReleased.countSeeking.countPatience = u at counted ⊢
    unfold State.sweep
    have asked := k.foldl _ (fun v j g => healthRequest le (s := v) g j) u.activeLanes counted
    dsimp only
    split
    · exact asked
    · exact k.log _ _ _ _ _ asked
  · exact h

/-! ### Messages, results and requests -/

theorem receive (h : s.Remembers o i) (q a : Seq) (deliver : State → State)
    (hd : ∀ u : State, u.Remembers o i → (deliver u).Remembers o i) : (s.receive q a deliver).Remembers o i := by
  have k := kept_remembers o i
  have acked : (State.acknowledge { s with silenceCount := 0 } a).Remembers o i :=
    k.acknowledge (s := { s with silenceCount := 0 }) (h.congr rfl) a
  unfold State.receive
  dsimp only
  split
  · exact h.discardFrame
  · split
    · exact k.finish (hd _ (acked.congr rfl))
    · exact acked

/-- R88: a success gives the lane a last good preset. -/
theorem trainingSucceeds (h : s.Remembers o i) (j : LaneId) (b : PresetId) (f : Byte) :
    (s.trainingSucceeds j b f).Remembers o i := by
  have k := kept_remembers o i
  have g := sendTrained (modLane h j (Lane.confirmed s.params b f) fun l => ⟨fun _ => by simp [Lane.confirmed], id⟩) j true
  unfold State.trainingSucceeds
  dsimp only
  split
  · exact k.activate g j
  · exact k.moveLane _ j _ (by decide) g

theorem deliverResult (h : s.Remembers o i) (d : Dwell) (r : DwellOutcome) : (s.deliverResult d r).Remembers o i := by
  have k := kept_remembers o i
  unfold State.deliverResult
  split
  · unfold State.trainResult
    split
    · exact h
    · split
      · unfold State.confirmResult
        split
        · exact trainingSucceeds h _ _ _
        · split
          · exact k.restartAttempt h _ _
          · exact k.trainingFails h _ _
      · exact k.requestDwell _ _ _ (modLane h _ _ fun l => ⟨id, id⟩)
  · exact k.healthResult h _ _

theorem dwellEnds (h : s.Remembers o i) (u : UnitId) (d : Dwell) (r : DwellOutcome) :
    (s.dwellEnds u d r).Remembers o i := by
  have k := kept_remembers o i
  have freed : (State.grantDue { s with units := s.units.set u none }).Remembers o i := h.congr rfl
  unfold State.dwellEnds
  dsimp only
  split
  · exact k.finish (freed.deliverResult d r)
  · exact k.finish freed

theorem takeRequest (h : s.Remembers o i) (p : PortId) (kind : ReqKind) (act : List Byte → State)
    (ha : ∀ b, (act b).Remembers o i) : (s.takeRequest p kind act).Remembers o i := by
  unfold State.takeRequest
  split
  · exact h
  · exact ha _

theorem takeOpen (h : s.Remembers o i) (p : PortId) (t : Byte) (b : List Byte) : (s.takeOpen p t b).Remembers o i := by
  have k := kept_remembers o i
  unfold State.takeOpen
  split
  · exact h.congr rfl
  · rename_i w _
    split
    · exact h.congr rfl
    · have served : (s.appendEntry p t w).scan.Remembers o i := k.scan (h.congr rfl)
      refine k.finish ?_
      unfold State.replyOpen
      split <;> exact served.congr rfl

theorem takeClose (h : s.Remembers o i) (p : PortId) (b : List Byte) : (s.takeClose p b).Remembers o i := by
  have k := kept_remembers o i
  unfold State.takeClose State.closeSlot
  split
  · split
    · exact h.congr rfl
    · split
      · exact h.congr rfl
      · split
        · exact h.congr rfl
        · split
          · exact h.congr rfl
          · exact k.finish ((k.dropEntries (k.beginClose h _ _) _).congr rfl)
          · exact k.finish ((k.beginClose h _ _).congr rfl)
  · exact h.congr rfl

theorem takeWithdraw (h : s.Remembers o i) (p : PortId) (b : List Byte) : (s.takeWithdraw p b).Remembers o i := by
  unfold State.takeWithdraw
  split
  · split
    · exact h.congr rfl
    · exact (kept_remembers o i).finish (((kept_remembers o i).withdrawEntry h _).congr rfl)
  · exact h.congr rfl

theorem takeReadLog (h : s.Remembers o i) (p : PortId) (b : List Byte) : (s.takeReadLog p b).Remembers o i := by
  unfold State.takeReadLog State.readLog
  dsimp only
  repeat' split
  all_goals exact h.congr rfl

theorem takeWriteParam (h : s.Remembers o i) (p : PortId) (b : List Byte) : (s.takeWriteParam p b).Remembers o i := by
  have k := kept_remembers o i
  have after : ∀ (id : ParamId) (old ps : Params), (id.afterWrite old { s with params := ps }).Remembers o i := by
    intro id old ps
    unfold ParamId.afterWrite
    split
    · unfold State.clampStrikes
      split
      · refine mapLanes (s := { s with params := ps }) (h.congr rfl) _ fun l => ?_
        unfold Lane.clampStrikes
        split <;> exact ⟨rfl, rfl⟩
      · exact h.congr rfl
    all_goals exact h.congr rfl
  unfold State.takeWriteParam State.writeParam
  split
  · split
    · exact h.congr rfl
    · split
      · exact h.congr rfl
      · exact k.finish ((after _ _ _).congr rfl)
  · exact h.congr rfl

theorem takeLane1 (h : s.Remembers o i) (p : PortId) (act : LaneId → State) (ha : ∀ j, (act j).Remembers o i)
    (b : List Byte) : (s.takeLane1 p act b).Remembers o i := by
  unfold State.takeLane1
  split
  · split
    · exact h.congr rfl
    · exact (kept_remembers o i).finish ((ha _).congr rfl)
  · exact h.congr rfl

theorem restartByHost (h : s.Remembers o i) : s.restartByHost.Remembers o i := by
  unfold State.restartByHost
  split
  · exact (kept_remembers o i).goLost h _
  all_goals exact h.congr rfl

theorem endTransaction (h : s.Remembers o i) (p : PortId) (c : Byte) (n : Nat) (f : Port → Transaction → List Byte)
    (act : Port → Transaction → Port) : (s.endTransaction p c n f act).Remembers o i := by
  unfold State.endTransaction
  have g : (if (s.port p).transaction = none then s.takeCommand p c else s).Remembers o i := by
    split <;> exact h.congr rfl
  dsimp only
  split
  · exact g
  · split <;> exact g.congr rfl

theorem endLoad (h : s.Remembers o i) (image : List Byte) : (s.endLoad image).Remembers o i := by
  have logged := (kept_remembers o i).foldl (s := { s with params := (loadImage image).params }) _
    (fun u (e : LogKind × Half) g => (kept_remembers o i).log u e.1 none none e.2 g) (loadImage image).entries (h.congr rfl)
  exact logged.congr rfl

theorem depart (h : s.Remembers o i) (p : PortId) : (s.depart p).Remembers o i := by
  have k := kept_remembers o i
  have gone : (s.modPort p Port.depart).Remembers o i := h.congr rfl
  exact k.finish (k.dropEntries (k.foldl State.departCircuit (fun _ _ g => k.beginClose g _ _) _ gone) _)

end State.Remembers

/-- R1, R107: every command but device reset keeps what a lane remembers. -/
theorem exec_remembers {o : Lane} {i : LaneId} {s t : State} (le : o.missed ≤ 255) (h : s.Remembers o i) (c : Instr)
    (live : ∀ side steer present, c ≠ .deviceReset side steer present) (e : exec c s = .next t) : t.Remembers o i := by
  have k := kept_remembers o i
  cases c with
  | deviceReset side steer present => exact absurd rfl (live side steer present)
  | configLoadEnd => cases e; split; exact h.endLoad _; exact h
  | hostArrival => cases e; split <;> exact h.congr rfl
  | hostDeparture => cases e; split; exact h.depart _; exact h
  | writeRequest | readReply | readNotice | readStatus => cases e; exact h.endTransaction _ _ _ _ _
  | unknownCommand => cases e; split; exact h; exact h.endTransaction _ _ _ _ _
  | openCircuit => cases e; exact h.takeRequest _ _ _ fun _ => h.takeOpen _ _ _
  | closeRequest => cases e; exact h.takeRequest _ _ _ fun _ => h.takeClose _ _
  | withdraw => cases e; exact h.takeRequest _ _ _ fun _ => h.takeWithdraw _ _
  | circuitStatus =>
    cases e; refine h.takeRequest _ _ _ fun _ => ?_
    unfold State.takeCircuitStatus; repeat' split
    all_goals exact h.congr rfl
  | laneStatus =>
    cases e; refine h.takeRequest _ _ _ fun _ => ?_
    unfold State.takeLaneStatus; repeat' split
    all_goals exact h.congr rfl
  | trunkStatus => cases e; exact h.takeRequest _ _ _ fun _ => h.congr rfl
  | readLog => cases e; exact h.takeRequest _ _ _ fun _ => h.takeReadLog _ _
  | readParam =>
    cases e; refine h.takeRequest _ _ _ fun _ => ?_
    unfold State.takeReadParam; repeat' split
    all_goals exact h.congr rfl
  | writeParam => cases e; exact h.takeRequest _ _ _ fun _ => h.takeWriteParam _ _
  | fenceLane => cases e; exact h.takeRequest _ _ _ fun _ => h.takeLane1 _ _ (fun j => k.fenceByHost h j) _
  | unfenceLane => cases e; exact h.takeRequest _ _ _ fun _ => h.takeLane1 _ _ (fun j => k.unfenceByHost h j) _
  | restartTrunk => cases e; exact h.takeRequest _ _ _ fun _ => k.finish (h.restartByHost.congr rfl)
  | badFrame => cases e; split <;> exact h.congr rfl
  | join | joinWhileUp => cases e; exact h.receiveJoin _
  | ack =>
    cases e; split
    · refine k.acknowledge ?_ _
      exact h.congr rfl
    · exact h.discardFrame
  | setup => cases e; exact h.receive _ _ _ fun _ h => k.takeSetup h _ _ _ _ _ _ _
  | accept => cases e; exact h.receive _ _ _ fun _ h => k.takeAccept h _ _
  | refuse => cases e; exact h.receive _ _ _ fun _ h => k.takeRefuse h _ _ _
  | trained => cases e; exact h.receive _ _ _ fun _ h => k.takeTrained h _ _ _
  | laneFail => cases e; exact h.receive _ _ _ fun _ h => k.takeLaneFail h _ _
  | amend => cases e; exact h.receive _ _ _ fun _ h => k.takeAmend h _ _ _
  | amendReply => cases e; exact h.receive _ _ _ fun _ h => k.takeAmendReply h _ _ _
  | close => cases e; exact h.receive _ _ _ fun _ h => k.takePeerClose h _ _
  | closed => cases e; exact h.receive _ _ _ fun _ h => k.takeClosed h _
  | fence => cases e; exact h.receive _ _ _ fun _ h => k.takeFence h _
  | unfence => cases e; exact h.receive _ _ _ fun _ h => k.takeUnfence h _
  | frameTransmit => cases e; unfold State.beginFrame; split <;> exact h.congr rfl
  | controlTick | retransmit | tccRetry | peerSilent => cases e; exact h.controlTickIf _
  | sweepTick | quarantineRelease | openExpired | seekExhausted => cases e; exact h.sweepTickIf le _
  | dwellResult => cases e; split; exact h; exact h.dwellEnds _ _ _
  | lossOfLock => cases e; split; exact k.finish (k.declareFailing h _ _ _); exact h
  | commandByte => cases e; exact h.congr rfl

/-- Settles O3: a lane remembers its own record to begin with, and every command but device reset keeps that. -/
theorem laneHistoryKept : Obligations.LaneHistoryKept := by
  intro c s t i e live le
  exact exec_remembers le (o := s.lane i) (s := s) ⟨id, le_refl _⟩ c live e

end Sys2Proof.Machine
end

section
/-! SUPPORT. Sys2Proof/Proofs/Reads: what the shared operations on fences, positions, dwells and the channel do to each
field a statement reads, and what the end of an event does when little is marked. -/

namespace Sys2Proof.Machine

open Sys2Proof

/-! ### The channel (R130, R131) -/

/-- R131: transmission only takes messages off the send queue. -/
theorem State.length_sendQueue_transmit (n : Nat) (s : State) :
    (State.transmit n s).sendQueue.length ≤ s.sendQueue.length := by
  induction n generalizing s with
  | zero => exact le_refl _
  | succ n ih =>
    unfold State.transmit
    split
    · exact le_refl _
    · rename_i m rest e
      split
      · refine (ih _).trans ?_
        simp only [State.hand, e, List.length_cons]
        omega
      · exact le_refl _

theorem State.length_sendQueue_send (s : State) (m : Msg) :
    (s.send m).sendQueue.length ≤ s.sendQueue.length + 1 := by
  unfold State.send
  split
  · omega
  split
  · omega
  split
  · exact Nat.le_succ _
  · simpa using State.length_sendQueue_transmit Config.window { s with sendQueue := s.sendQueue ++ [m] }

/-- R130: a message placed leaves room for one fewer. -/
theorem State.Room.send {s : State} {n : Nat} (h : s.Room (n + 1)) (m : Msg) : (s.send m).Room n := by
  obtain ⟨up, room⟩ := h
  have := s.length_sendQueue_send m
  exact ⟨by simpa using up, by omega⟩

theorem State.Room.lt {s : State} {n : Nat} (h : s.Room (n + 1)) : s.sendQueue.length < Config.sendCapacity := by
  have := h.2
  omega

theorem State.Room.mono {s : State} {n m : Nat} (h : s.Room n) (le : m ≤ n) : s.Room m :=
  ⟨h.1, by have := h.2; omega⟩

theorem State.CanSend.room {s : State} (h : s.CanSend) : s.Room 1 := by
  obtain ⟨up, empty, _⟩ := h
  exact ⟨up, by simp [empty, Config.sendCapacity]⟩

/-- R130: what a message adds to those placed, by the trunk state. -/
theorem State.placed_send_of_lt (s : State) (m : Msg) (v : s.scratch.overflow = false)
    (room : s.sendQueue.length < Config.sendCapacity) :
    (s.send m).placed = s.placed ++ if s.trunk = .up then [m] else [] := by
  split
  · exact s.placed_send m ‹_› v room
  · rw [s.send_of_not_up m ‹_›, List.append_nil]

@[simp] theorem State.port_send (s : State) (m : Msg) (h : PortId) : (s.send m).port h = s.port h := by
  simp [State.port]

@[simp] theorem State.placed_sent (s : State) (m : Msg) (h : s.sendQueue = []) :
    (s.sent m).placed = s.placed ++ [m] := by
  simp [State.placed, State.sent, h]

@[simp] theorem State.placed_modLane (s : State) (i : LaneId) (f : Lane → Lane) :
    (s.modLane i f).placed = s.placed := rfl

@[simp] theorem State.placed_freeLane (e : PoolEnd) (s : State) (i : LaneId) :
    (State.freeLane e s i).placed = s.placed := rfl

@[simp] theorem State.placed_quarantine (s : State) (i : LaneId) : (s.quarantine i).placed = s.placed := rfl

@[simp] theorem State.scratch_freeLane (e : PoolEnd) (s : State) (i : LaneId) :
    (State.freeLane e s i).scratch = { s.scratch with grown := true } := rfl

/-! ### Positions (R22, R26) -/

theorem State.modCircuit_eq (s : State) (c : SlotId) (f : Circuit → Circuit) :
    ∃ sl, s.modCircuit c f = { s with slots := sl } := by
  unfold State.modCircuit
  split <;> exact ⟨_, rfl⟩

theorem State.circuit_modCircuit (s : State) (c d : SlotId) (f : Circuit → Circuit) :
    (s.modCircuit c f).circuit d = if d = c then (s.circuit c).map f else s.circuit d := by
  unfold State.modCircuit
  split
  · rename_i none
    by_cases e : d = c
    · simp [e, none]
    · simp [e]
  · rename_i x some
    simp [State.circuit_setCircuit, some]

/-- `t` differs from `s` in its circuits alone, as far as the statements read it. -/
abbrev State.SlotsAlone (s t : State) : Prop :=
  t.side = s.side ∧ t.params = s.params ∧ t.trunk = s.trunk ∧ t.queue = s.queue ∧ t.seeking = s.seeking
    ∧ t.lanes = s.lanes ∧ t.pool = s.pool ∧ t.dwellQueue = s.dwellQueue ∧ t.units = s.units ∧ t.ports = s.ports
    ∧ t.ring = s.ring ∧ t.sendQueue = s.sendQueue ∧ t.outstanding = s.outstanding ∧ t.scratch = s.scratch
    ∧ t.placed = s.placed ∧ ∀ i, t.lane i = s.lane i

@[simp] theorem State.modCircuit_rest (s : State) (c : SlotId) (f : Circuit → Circuit) :
    s.SlotsAlone (s.modCircuit c f) := by
  obtain ⟨sl, e⟩ := s.modCircuit_eq c f
  rw [e]
  exact ⟨rfl, rfl, rfl, rfl, rfl, rfl, rfl, rfl, rfl, rfl, rfl, rfl, rfl, rfl, rfl, fun _ => rfl⟩

@[simp] theorem State.modPosition_rest (s : State) (c : SlotId) (n : Nat) (f : Position → Position) :
    s.SlotsAlone (s.modPosition c n f) :=
  s.modCircuit_rest c _

theorem State.lane_modPosition (s : State) (c : SlotId) (n : Nat) (f : Position → Position) (i : LaneId) :
    (s.modPosition c n f).lane i = s.lane i := by
  simp

theorem State.circuit_modPosition (s : State) (c d : SlotId) (n : Nat) (f : Position → Position) :
    (s.modPosition c n f).circuit d =
      if d = c then (s.circuit c).map fun x => { x with positions := x.positions.modify n f } else s.circuit d :=
  s.circuit_modCircuit c d _

theorem State.position_eq {s : State} {c : SlotId} {x : Circuit} (h : s.circuit c = some x) (n : Nat) :
    s.position c n = x.positions[n]? := by
  simp [State.position, h]

/-- R26: the position that named a lane in a role names it no longer. -/
def Position.without (role : LaneRole) (q : Position) : Position :=
  match role with
  | .current => { q with current := none }
  | .replacement => { q with replacement := none }

@[simp] theorem Position.without_rest (role : LaneRole) (q : Position) :
    (q.without role).hostLane = q.hostLane ∧ (q.without role).repair = q.repair
      ∧ (q.without role).attempts = q.attempts ∧ (q.without role).dropped = q.dropped
      ∧ (q.without role).patience = q.patience := by
  cases role <;> exact ⟨rfl, rfl, rfl, rfl, rfl⟩

theorem Position.eq_without {role : LaneRole} {p left : Position}
    (h : role = .current ∧ left = { p with current := none } ∨ role = .replacement ∧ left = { p with replacement := none }) :
    left = p.without role := by
  rcases h with ⟨rfl, rfl⟩ | ⟨rfl, rfl⟩ <;> rfl

/-- The circuit whose position names a lane no longer. -/
def Circuit.without (x : Circuit) (pl : Place) : Circuit :=
  { x with positions := x.positions.modify pl.position (Position.without pl.role) }

theorem Circuit.getElem?_without {x : Circuit} {pl : Place} {p : Position} (h : x.positions[pl.position]? = some p) :
    (x.without pl).positions[pl.position]? = some (p.without pl.role) := by
  simp [Circuit.without, h]

theorem State.unname_of_place {s : State} {i : LaneId} {pl : Place} (h : (s.lane i).place = some pl) :
    s.unname i = s.modPosition pl.slot pl.position (Position.without pl.role) := by
  unfold State.unname
  rw [h]
  rfl

@[simp] theorem State.unname_rest (s : State) (i : LaneId) : s.SlotsAlone (s.unname i) := by
  unfold State.unname
  split
  · exact ⟨rfl, rfl, rfl, rfl, rfl, rfl, rfl, rfl, rfl, rfl, rfl, rfl, rfl, rfl, rfl, fun _ => rfl⟩
  · exact s.modPosition_rest _ _ _

/-- A lane fills a position of a circuit (R26). -/
structure State.Fills (s : State) (i : LaneId) (pl : Place) (x : Circuit) (p : Position) : Prop where
  place : (s.lane i).place = some pl
  circuit : s.circuit pl.slot = some x
  position : x.positions[pl.position]? = some p

theorem State.Fills.ownerTag {s : State} {i : LaneId} {pl : Place} {x : Circuit} {p : Position} (h : s.Fills i pl x p) :
    s.ownerTag i = some x.tag := by
  simp [State.ownerTag, h.place, h.circuit]

theorem State.Fills.circuit_unname {s : State} {i : LaneId} {pl : Place} {x : Circuit} {p : Position}
    (h : s.Fills i pl x p) : (s.unname i).circuit pl.slot = some (x.without pl) := by
  rw [State.unname_of_place h.place, State.circuit_modPosition, if_pos rfl, h.circuit]
  rfl

/-- What `Fills` reads decides it. -/
theorem State.Fills.congr {s t : State} {i : LaneId} {pl : Place} {x : Circuit} {p : Position} (h : s.Fills i pl x p)
    (place : (t.lane i).place = (s.lane i).place) (slots : t.slots = s.slots) : t.Fills i pl x p :=
  ⟨place.trans h.place, by unfold State.circuit; rw [slots]; exact h.circuit, h.position⟩

/-! ### Local fences (R11, R12) -/

theorem State.noteFenceChange_eq (s : State) (i : LaneId) :
    ∃ ls, s.noteFenceChange i = { s with fenceChanges := ls } := by
  unfold State.noteFenceChange
  split <;> exact ⟨_, rfl⟩

/-- `t` differs from `s` in lane records, the channel, the log and the noted fence changes alone, as far as the
statements read it. -/
abbrev State.FencesAlone (s t : State) : Prop :=
  t.side = s.side ∧ t.params = s.params ∧ t.trunk = s.trunk ∧ t.queue = s.queue ∧ t.seeking = s.seeking
    ∧ t.slots = s.slots ∧ t.pool = s.pool ∧ t.dwellQueue = s.dwellQueue ∧ t.units = s.units ∧ t.ports = s.ports
    ∧ ∀ c, t.circuit c = s.circuit c

/-- The message that tells the peer of a fence goes out behind the lane's record and the noted change. -/
theorem State.fence_send_eq (s : State) (i : LaneId) (f : Lane → Lane) (m : Msg) :
    ∃ q o k fr b v ls, ((s.modLane i f).noteFenceChange i).send m =
      { s.modLane i f with
        fenceChanges := ls, sendQueue := q, outstanding := o, nextSeq := k, txFrames := fr, sentSinceTick := b,
        scratch := { s.scratch with overflow := v } } := by
  obtain ⟨ls, e⟩ := (s.modLane i f).noteFenceChange_eq i
  obtain ⟨q, o, k, fr, b, v, g⟩ := ((s.modLane i f).noteFenceChange i).send_eq m
  refine ⟨q, o, k, fr, b, v, ls, ?_⟩
  rw [g, e]
  rfl

/-- With room in the send queue the message is placed and marks no loss. -/
theorem State.fence_send_room (s : State) (i : LaneId) (f : Lane → Lane) (m : Msg) (v : s.scratch.overflow = false)
    (room : s.sendQueue.length < Config.sendCapacity) :
    (((s.modLane i f).noteFenceChange i).send m).scratch = s.scratch
      ∧ (((s.modLane i f).noteFenceChange i).send m).placed = s.placed ++ (if s.trunk = .up then [m] else []) := by
  obtain ⟨ls, e⟩ := (s.modLane i f).noteFenceChange_eq i
  rw [e]
  exact ⟨State.send_scratch _ m room, State.placed_send_of_lt _ m v room⟩

theorem State.logFence_eq (s : State) (i : LaneId) (t : Option Tag) (w : FenceCause) :
    ∃ r n, s.logFence i t w = { s with ring := r, nextEntry := n } := by
  unfold State.logFence
  cases w <;> exact ⟨_, _, rfl⟩

/-- R11: the fence is set on the lane's record, FENCE placed, and the log extended; nothing else changes. -/
theorem State.setLocalFence_eq (s : State) (i : LaneId) (t : Option Tag) (w : FenceCause) :
    ∃ r n, s.setLocalFence i t w =
      { ((s.modLane i (Lane.fenceLocally s.params)).noteFenceChange i).send (.fence (byteOf i.val) w.reason) with
        ring := r, nextEntry := n } := by
  unfold State.setLocalFence
  dsimp only
  obtain ⟨r, n, e⟩ := State.logFence_eq
    (((s.modLane i (Lane.fenceLocally s.params)).noteFenceChange i).send (.fence (byteOf i.val) w.reason)) i t w
  rw [e]
  split <;> exact ⟨_, _, rfl⟩

@[simp] theorem State.setLocalFence_rest (s : State) (i : LaneId) (t : Option Tag) (w : FenceCause) :
    s.FencesAlone (s.setLocalFence i t w) := by
  obtain ⟨r, n, e⟩ := s.setLocalFence_eq i t w
  obtain ⟨_, _, _, _, _, _, _, g⟩ := s.fence_send_eq i (Lane.fenceLocally s.params) (.fence (byteOf i.val) w.reason)
  rw [e, g]
  exact ⟨rfl, rfl, rfl, rfl, rfl, rfl, rfl, rfl, rfl, rfl, fun _ => rfl⟩

theorem State.lane_setLocalFence (s : State) (i j : LaneId) (t : Option Tag) (w : FenceCause) :
    (s.setLocalFence i t w).lane j = if j = i then (s.lane i).fenceLocally s.params else s.lane j := by
  obtain ⟨r, n, e⟩ := s.setLocalFence_eq i t w
  obtain ⟨_, _, _, _, _, _, _, g⟩ := s.fence_send_eq i (Lane.fenceLocally s.params) (.fence (byteOf i.val) w.reason)
  rw [e, g]
  exact s.lane_modLane i j _

/-- With room in the send queue FENCE is placed where the trunk is UP, and no loss is marked. -/
theorem State.setLocalFence_room (s : State) (i : LaneId) (t : Option Tag) (w : FenceCause)
    (v : s.scratch.overflow = false) (room : s.sendQueue.length < Config.sendCapacity) :
    (s.setLocalFence i t w).scratch = s.scratch
      ∧ (s.setLocalFence i t w).placed
        = s.placed ++ (if s.trunk = .up then [.fence (byteOf i.val) w.reason] else []) := by
  obtain ⟨r, n, e⟩ := s.setLocalFence_eq i t w
  rw [e]
  exact s.fence_send_room i (Lane.fenceLocally s.params) (.fence (byteOf i.val) w.reason) v room

theorem State.Room.setLocalFence {s : State} {n : Nat} (h : s.Room (n + 1)) (i : LaneId) (t : Option Tag)
    (w : FenceCause) : (s.setLocalFence i t w).Room n := by
  obtain ⟨r, k, e⟩ := s.setLocalFence_eq i t w
  obtain ⟨ls, g⟩ := (s.modLane i (Lane.fenceLocally s.params)).noteFenceChange_eq i
  rw [e, g]
  exact State.Room.send (s := { s.modLane i (Lane.fenceLocally s.params) with fenceChanges := ls }) h _

/-- An entry stays in the ring when one more is logged, unless it was the oldest of a full ring. -/
theorem State.mem_ring_log {s : State} {e : LogEntry} (h : s.ring.getLast? = some e) (k : LogKind) (l : Option LaneId)
    (t : Option Tag) (d : Half) : e ∈ (s.log k l t d).ring := by
  have nonempty : s.ring ≠ [] := by rintro n; rw [n] at h; cases h
  have last : s.ring.getLast nonempty = e := Option.some.inj ((List.getLast?_eq_some_getLast nonempty).symm.trans h)
  refine List.mem_append.mpr (.inl ?_)
  split
  · rename_i full
    have tail : s.ring.tail ≠ [] := by
      intro n
      have := congrArg List.length n
      simp at this
      omega
    rw [← last, ← List.getLast_tail tail]
    exact List.getLast_mem _
  · rw [← last]
    exact List.getLast_mem _

/-- R11, R169: a fence for a failure reason leaves a LANE_FENCED entry with the raised fail count. -/
theorem State.logged_setLocalFence (s : State) (i : LaneId) (t : Option Tag) (w : FailReason) :
    ∃ e ∈ (s.setLocalFence i t (.failure w)).ring, e.kind = .laneFenced ∧ e.lane = some i ∧ e.tag = t
      ∧ e.detail = detail2 (failByte w) (byteOf (min 255 ((s.lane i).failCount + 1))) := by
  have count : ((((s.modLane i (Lane.fenceLocally s.params)).noteFenceChange i).send
      (.fence (byteOf i.val) (.failure w))).lane i).failCount = min 255 ((s.lane i).failCount + 1) := by
    obtain ⟨_, _, _, _, _, _, _, g⟩ := s.fence_send_eq i (Lane.fenceLocally s.params) (.fence (byteOf i.val) (.failure w))
    rw [g]
    exact congrArg Lane.failCount (s.lane_modLane_self i _)
  unfold State.setLocalFence State.logFence
  dsimp only [FenceCause.reason]
  generalize ((s.modLane i (Lane.fenceLocally s.params)).noteFenceChange i).send
    (.fence (byteOf i.val) (.failure w)) = u at count ⊢
  have last := u.getLast?_log .laneFenced (some i) t (detail2 (failByte w) (byteOf (u.lane i).failCount))
  split
  · exact ⟨_, State.mem_ring_log last _ _ _ _, rfl, rfl, rfl, by rw [count]⟩
  · exact ⟨_, List.mem_of_getLast? last, rfl, rfl, rfl, by rw [count]⟩

/-- R12, R18: a lane's record without a local fence and its age. -/
def Lane.unfenced (l : Lane) : Lane := { l with localFence := false, age := none }

@[simp] theorem State.clearLocalFence_rest (s : State) (i : LaneId) : s.FencesAlone (s.clearLocalFence i) := by
  obtain ⟨_, _, _, _, _, _, _, g⟩ := s.fence_send_eq i Lane.unfenced
    (.unfence (byteOf i.val))
  change s.FencesAlone (((s.modLane i Lane.unfenced).noteFenceChange i).send (.unfence (byteOf i.val)))
  rw [g]
  exact ⟨rfl, rfl, rfl, rfl, rfl, rfl, rfl, rfl, rfl, rfl, fun _ => rfl⟩

theorem State.lane_clearLocalFence (s : State) (i j : LaneId) :
    (s.clearLocalFence i).lane j = if j = i then (s.lane i).unfenced else s.lane j := by
  obtain ⟨_, _, _, _, _, _, _, g⟩ := s.fence_send_eq i Lane.unfenced
    (.unfence (byteOf i.val))
  refine (congrArg (fun u => State.lane u j) g).trans ?_
  exact s.lane_modLane i j Lane.unfenced

theorem State.clearLocalFence_room (s : State) (i : LaneId) (v : s.scratch.overflow = false)
    (room : s.sendQueue.length < Config.sendCapacity) :
    (s.clearLocalFence i).scratch = s.scratch
      ∧ (s.clearLocalFence i).placed = s.placed ++ (if s.trunk = .up then [.unfence (byteOf i.val)] else []) :=
  s.fence_send_room i Lane.unfenced (.unfence (byteOf i.val)) v room

theorem State.length_sendQueue_clearLocalFence (s : State) (i : LaneId) :
    (s.clearLocalFence i).sendQueue.length ≤ s.sendQueue.length + 1 := by
  change (((s.modLane i Lane.unfenced).noteFenceChange i).send (.unfence (byteOf i.val))).sendQueue.length ≤ _
  obtain ⟨ls, e⟩ := (s.modLane i Lane.unfenced).noteFenceChange_eq i
  rw [e]
  exact State.length_sendQueue_send _ _

/-! ### The end of an event -/

/-- The grant rule changes units, dwell queue and, on lanes that train, preset and receiver values alone (R72, R73). -/
theorem State.grant_eq (s : State) : ∃ ls q us, s.grant = { s with lanes := ls, dwellQueue := q, units := us }
    ∧ ∀ i, ∃ p a, ls.get i = { s.lane i with preset := p, applied := a }
      ∧ ((s.lane i).training = none → ls.get i = s.lane i) := by
  have begins : ∀ (u : State) (d : Dwell), ∃ ls, u.beginDwell d = { u with lanes := ls }
      ∧ ∀ i, ∃ p a, ls.get i = { u.lane i with preset := p, applied := a }
        ∧ ((u.lane i).training = none → ls.get i = u.lane i) := by
    intro u d
    unfold State.beginDwell
    split
    · exact ⟨u.lanes, rfl, fun i => ⟨_, _, rfl, fun _ => rfl⟩⟩
    · refine ⟨_, rfl, fun i => ?_⟩
      rw [Table.get_set]
      split
      · rename_i e
        subst e
        dsimp only
        split
        · exact ⟨_, _, rfl, fun _ => rfl⟩
        · rename_i r e
          exact ⟨_, _, rfl, fun n => by rw [n] at e; cases e⟩
      · exact ⟨_, _, rfl, fun _ => rfl⟩
  have all : ∀ (n : Nat) (u : State), ∃ ls q us, State.grantUpTo n u = { u with lanes := ls, dwellQueue := q, units := us }
      ∧ ∀ i, ∃ p a, ls.get i = { u.lane i with preset := p, applied := a }
        ∧ ((u.lane i).training = none → ls.get i = u.lane i) := by
    intro n
    induction n with
    | zero => exact fun u => ⟨_, _, _, rfl, fun i => ⟨_, _, rfl, fun _ => rfl⟩⟩
    | succ n ih =>
      intro u
      unfold State.grantUpTo
      split
      · exact ⟨_, _, _, rfl, fun i => ⟨_, _, rfl, fun _ => rfl⟩⟩
      · rename_i t one
        obtain ⟨w, d, _, _, _, rfl⟩ := State.grantOne_spec one
        obtain ⟨ls, e, first⟩ := begins { u with dwellQueue := u.dwellQueue.erase d, units := u.units.set w (some d) } d
        rw [e]
        obtain ⟨ks, q, us, e', later⟩ := ih { u with
          dwellQueue := u.dwellQueue.erase d, units := u.units.set w (some d), lanes := ls }
        refine ⟨ks, q, us, e', fun i => ?_⟩
        obtain ⟨p, a, f, same⟩ := first i
        obtain ⟨p', a', g, same'⟩ := later i
        have f' : State.lane { u with
            dwellQueue := u.dwellQueue.erase d, units := u.units.set w (some d), lanes := ls } i
          = { u.lane i with preset := p, applied := a } := f
        refine ⟨p', a', by rw [g, f'], fun none => ?_⟩
        rw [same' (by rw [f']; exact none)]
        exact same none
  exact all 4 s

/-- `t` shows what `s` shows of lanes, circuits, queues, channel and log. -/
abbrev State.SameView (s t : State) : Prop :=
  t.side = s.side ∧ t.params = s.params ∧ t.trunk = s.trunk ∧ t.lanes = s.lanes ∧ t.pool = s.pool ∧ t.slots = s.slots
    ∧ t.queue = s.queue ∧ t.seeking = s.seeking ∧ t.sendQueue = s.sendQueue ∧ t.outstanding = s.outstanding
    ∧ t.ring = s.ring ∧ t.placed = s.placed ∧ (∀ i, t.lane i = s.lane i) ∧ (∀ c, t.circuit c = s.circuit c)
    ∧ ∀ i, t.boundTo i = s.boundTo i

/-- The state with its marks cleared, as the end of an event leaves it (log entry 22). -/
def State.unmark (s : State) : State := { s with scratch := {} }

@[simp] theorem State.unmark_rest (s : State) : s.SameView s.unmark :=
  ⟨rfl, rfl, rfl, rfl, rfl, rfl, rfl, rfl, rfl, rfl, rfl, rfl, fun _ => rfl, fun _ => rfl, fun _ => rfl⟩

theorem State.lane_unmark (s : State) (i : LaneId) : s.unmark.lane i = s.lane i := rfl

@[simp] theorem State.ports_unmark (s : State) : s.unmark.ports = s.ports := rfl

@[simp] theorem State.port_unmark (s : State) (h : PortId) : s.unmark.port h = s.port h := rfl

/-- A received frame's mark hides nothing. -/
@[simp] theorem State.received_view (s : State) : s.SameView s.received :=
  ⟨rfl, rfl, rfl, rfl, rfl, rfl, rfl, rfl, rfl, rfl, rfl, rfl, fun _ => rfl, fun _ => rfl, fun _ => rfl⟩

@[simp] theorem State.port_received (s : State) (h : PortId) : s.received.port h = s.port h := rfl

/-- The end of an event that marked no growth, no scan and no loss: the grant rule alone may have work. -/
theorem State.finish_of_unserved (s : State) (growth : s.scratch.grown = false) (scan : s.scratch.scan = false)
    (loss : s.scratch.overflow = false) :
    s.finish = (if s.scratch.grant then s.grant else s).unmark := by
  unfold State.finish State.unmark State.reportGrowth State.overflowLoss
  simp only [growth, scan, Bool.false_eq_true, if_false]
  split
  · obtain ⟨ls, q, us, e, _⟩ := s.grant_eq
    simp [e, loss]
  · simp [loss]

/-- The end of a received frame's event that marked nothing else. -/
theorem State.finish_of_clear (s : State) (h : ∃ b, s.scratch = { received := b }) :
    s.finish = s.unmark := by
  obtain ⟨b, e⟩ := h
  have := s.finish_of_unserved (by rw [e]) (by rw [e]) (by rw [e])
  simpa [e] using this

/-- The grant rule at the end of an event changes what `State.grant_eq` says, whether it is due or not. -/
theorem State.ite_grant_eq (s : State) : ∃ ls q us,
    (if s.scratch.grant then s.grant else s).unmark
      = { s with lanes := ls, dwellQueue := q, units := us, scratch := {} }
    ∧ ∀ i, ∃ p a, ls.get i = { s.lane i with preset := p, applied := a }
      ∧ ((s.lane i).training = none → ls.get i = s.lane i) := by
  split
  · obtain ⟨ls, q, us, e, h⟩ := s.grant_eq
    exact ⟨ls, q, us, by rw [e]; rfl, h⟩
  · exact ⟨s.lanes, s.dwellQueue, s.units, rfl, fun i => ⟨_, _, rfl, fun _ => rfl⟩⟩

/-! ### Receiving a message (R127, R132, R133) -/

theorem State.scratch_counted (s : State) (a : Seq) : (s.counted a).scratch = s.scratch := by
  simp [State.counted]

/-- The owning block does its work on a message in order, and the event ends. -/
theorem State.receive_inOrder {s : State} {q : Seq} (h : s.InOrder q) (a : Seq) (deliver : State → State) :
    s.receive q a deliver = (deliver (s.counted a).received).finish := by
  obtain ⟨up, seq⟩ := h
  simp [State.receive, State.counted, up, seq]

/-- A message that its owner discards leaves the reception alone. -/
theorem State.finish_received {r : State} (h : r.Unmarked) : r.received.finish = r := by
  rw [State.finish_of_clear _ ⟨true, by simp [State.received, h]⟩]
  exact r.clear_of_unmarked h

/-- The marks of a message's event before its owner has done anything. -/
theorem State.scratch_received {r : State} (h : r.Unmarked) : r.received.scratch = { received := true } := by
  simp [State.received, h]

end Sys2Proof.Machine
end

section
/-! SUPPORT. Sys2Proof/Proofs/Lost: a lane that leaves its circuit as QUARANTINED, the position that has lost it, and the
pick that follows (R13, R17, R37, R113 to R115). -/

namespace Sys2Proof.Machine

open Sys2Proof

/-! ### Picks (R114, R115) -/

/-- R115: seeking changes the position and the seeking list alone. -/
theorem State.seek_eq (s : State) (c : SlotId) (n : Nat) : s.seek c n =
    { s.modPosition c n (fun q =>
        { q with repair := .seeking, replacement := none, patience := some s.params.repairPatience }) with
      seeking := (s.seeking.filter fun cp => decide (cp ≠ (c, n))) ++ [(c, n)] } := by
  simp [State.seek]

/-- The position after a pick took lane `i`. -/
def Position.proposing (i : LaneId) (q : Position) : Position :=
  { q with repair := .proposed, replacement := some i, attempts := q.attempts + 1, patience := none }

/-- The position after a pick found the pool empty. -/
def Position.seeks (patience : Nat) (q : Position) : Position :=
  { q with repair := .seeking, replacement := none, patience := some patience }

/-- R114: a proposal takes the lane, notes it in the position, and places AMEND. -/
theorem State.propose_eq (s : State) (c : SlotId) (n : Nat) (t : Tag) (i : LaneId) : s.propose c n t i =
    ((s.takeLane i .claimed ⟨c, .replacement, n⟩).modPosition c n (Position.proposing i)).send
      (.amend t (byteOf n) (some (byteOf i.val))) := rfl

/-- R114: the pick of a live circuit's position with an attempt left, by the pool. -/
theorem State.pick_of {s : State} {c : SlotId} {n : Nat} {x : Circuit} {q : Position} (hx : s.circuit c = some x)
    (hq : x.positions[n]? = some q) (live : x.live = true) (left : q.attempts < 3) :
    s.pick c n = match s.pool with
      | i :: _ => s.propose c n x.tag i
      | [] => s.seek c n := by
  have few : ¬ 3 ≤ q.attempts := Nat.not_le.mpr left
  unfold State.pick
  simp only [hx, State.position_eq hx, hq, live, few, Bool.true_eq_false, if_false] <;> rfl

/-- What a pick with an attempt left and room for its message leaves alone. -/
structure State.PickFrame (s t : State) (c : SlotId) (n : Nat) (x : Circuit) : Prop where
  scratch : t.scratch = s.scratch
  ports : t.ports = s.ports
  ring : t.ring = s.ring
  lane : ∀ j, j ∉ s.pool → t.lane j = s.lane j
  circuit : ∃ f : Position → Position, t.circuit c = some { x with positions := x.positions.modify n f }
    ∧ ∀ q, (f q).hostLane = q.hostLane

theorem State.frame_pick {s : State} {c : SlotId} {n : Nat} {x : Circuit} {q : Position} (hx : s.circuit c = some x)
    (hq : x.positions[n]? = some q) (live : x.live = true) (left : q.attempts < 3) (room : s.Room 1) :
    s.PickFrame (s.pick c n) c n x := by
  rw [State.pick_of hx hq live left]
  split
  · rename_i i rest e
    have room' : ((s.takeLane i .claimed ⟨c, .replacement, n⟩).modPosition c n (Position.proposing i)).sendQueue.length
        < Config.sendCapacity := by simpa using room.lt
    rw [State.propose_eq]
    refine ⟨?_, by simp, ?_, fun j out => ?_, Position.proposing i, ?_, fun _ => rfl⟩
    · rw [State.send_scratch _ _ room']
      simp
    · simp
    · have ne : j ≠ i := by rintro rfl; exact out (by rw [e]; exact List.mem_cons_self)
      simp [State.lane_takeLane, ne]
    · have taken : (s.takeLane i .claimed ⟨c, .replacement, n⟩).circuit c = some x := hx
      rw [State.send_circuit, State.circuit_modPosition, if_pos rfl, taken]
      rfl
  · rw [State.seek_eq]
    obtain ⟨-, -, -, -, -, -, -, -, -, ports, ring, -, -, marks, -, lane⟩ :=
      s.modPosition_rest c n (Position.seeks s.params.repairPatience)
    refine ⟨marks, ports, ring, fun j _ => lane j, Position.seeks s.params.repairPatience, ?_, fun _ => rfl⟩
    refine (s.circuit_modPosition c c n _).trans ?_
    rw [if_pos rfl, hx]
    rfl

/-- R114, R115: the pick itself. -/
theorem State.picked_pick {s : State} {c : SlotId} {n : Nat} {x : Circuit} {q : Position} (hx : s.circuit c = some x)
    (hq : x.positions[n]? = some q) (live : x.live = true) (left : q.attempts < 3) (nodup : s.pool.Nodup)
    (v : s.scratch.overflow = false) (room : s.Room 1) : s.Picked (s.pick c n) c n x q s.pool [] := by
  constructor
  · intro empty
    rw [State.pick_of hx hq live left, empty]
    dsimp only
    rw [State.seek_eq]
    obtain ⟨-, -, -, -, -, -, pool, -, -, -, -, -, -, -, placed, -⟩ :=
      s.modPosition_rest c n (Position.seeks s.params.repairPatience)
    refine ⟨?_, pool.trans empty, List.mem_append_right _ List.mem_cons_self,
      { x with positions := x.positions.modify n (Position.seeks s.params.repairPatience) }, ?_, ?_⟩
    · rw [List.append_nil]
      exact placed
    · refine (s.circuit_modPosition c c n _).trans ?_
      rw [if_pos rfl, hx]
      rfl
    · simp [hq, Position.seeks]
  · intro j rest e
    have out : j ∉ rest := (List.nodup_cons.mp (e ▸ nodup)).1
    rw [State.pick_of hx hq live left, e]
    dsimp only
    rw [State.propose_eq]
    have taken : (s.takeLane j .claimed ⟨c, .replacement, n⟩).circuit c = some x := hx
    refine ⟨?_, ?_, ?_, ?_, { x with positions := x.positions.modify n (Position.proposing j) }, ?_, ?_⟩
    · rw [State.placed_send _ _ (by simpa using room.1) (by simpa using v) (by simpa using room.lt)]
      simp [State.placed]
    · simp only [State.send_pool, State.modPosition_rest, State.pool_takeLane, e, List.filter_cons, ne_eq,
        not_true_eq_false, decide_false, Bool.false_eq_true, if_false]
      exact List.filter_eq_self.mpr fun k hk => by
        simp only [decide_eq_true_eq]; rintro rfl; exact out hk
    · simp [State.lane_takeLane, Lane.enter]
    · simp [State.lane_takeLane]
    · rw [State.send_circuit, State.circuit_modPosition, if_pos rfl, taken]
      rfl
    · simp [hq, Position.proposing]

/-- A pick made behind other messages, seen from before them. -/
theorem State.Picked.behind {s m t : State} {c : SlotId} {n : Nat} {x y : Circuit} {q : Position} {pool : List LaneId}
    {before : List Msg} (h : m.Picked t c n y q pool []) (placed : m.placed = s.placed ++ before)
    (params : m.params = s.params) (tag : y.tag = x.tag) : s.Picked t c n x q pool before := by
  obtain ⟨seeks, proposes⟩ := h
  rw [tag] at proposes
  constructor
  · intro e
    obtain ⟨pl, rest⟩ := seeks e
    rw [placed, List.append_nil] at pl
    rw [params] at rest
    exact ⟨pl, rest⟩
  · intro j r e
    obtain ⟨pl, rest⟩ := proposes j r e
    rw [placed, List.append_nil] at pl
    exact ⟨pl, rest⟩

/-- A pick as a later state shows it. -/
theorem State.Picked.seen {s t u : State} {c : SlotId} {n : Nat} {x : Circuit} {q : Position} {pool : List LaneId}
    {before : List Msg} (h : s.Picked t c n x q pool before) (v : t.SameView u) : s.Picked u c n x q pool before := by
  obtain ⟨_, _, _, _, hpool, _, _, hseeking, _, _, _, hplaced, hlane, hcircuit, _⟩ := v
  exact ⟨by simpa only [hplaced, hpool, hseeking, hcircuit] using h.seeks,
    by simpa only [hplaced, hpool, hlane, hcircuit] using h.proposes⟩

/-! ### A lane that leaves its circuit (R13, R17, R37) -/

/-- A lane out of its circuit as QUARANTINED, its position naming it no longer. -/
def State.outOfCircuit (s : State) (i : LaneId) : State := (s.unname i).quarantine i

theorem State.lane_outOfCircuit (s : State) (i j : LaneId) :
    (s.outOfCircuit i).lane j = if j = i then (s.lane i).clearPlace.enter .quarantined else s.lane j := by
  simp [State.outOfCircuit, State.lane_quarantine]

theorem State.pool_outOfCircuit (s : State) (i : LaneId) :
    (s.outOfCircuit i).pool = s.pool.filter fun j => decide (j ≠ i) := by
  simp [State.outOfCircuit, State.pool_quarantine]

/-- `t` differs from `s` in lane records, the pool, the dwell queue and the circuits alone, as far as the statements
read it. -/
abbrev State.MovesAlone (s t : State) : Prop :=
  t.side = s.side ∧ t.params = s.params ∧ t.trunk = s.trunk ∧ t.queue = s.queue ∧ t.seeking = s.seeking
    ∧ t.ports = s.ports ∧ t.ring = s.ring ∧ t.sendQueue = s.sendQueue ∧ t.outstanding = s.outstanding
    ∧ t.scratch = s.scratch ∧ t.placed = s.placed

@[simp] theorem State.outOfCircuit_rest (s : State) (i : LaneId) : s.MovesAlone (s.outOfCircuit i) := by
  simp [State.MovesAlone, State.outOfCircuit, State.placed]

theorem State.Fills.circuit_outOfCircuit {s : State} {i : LaneId} {pl : Place} {x : Circuit} {p : Position}
    (h : s.Fills i pl x p) : (s.outOfCircuit i).circuit pl.slot = some (x.without pl) :=
  h.circuit_unname

theorem State.Fills.expel {s : State} {i : LaneId} {pl : Place} {x : Circuit} {p : Position} (h : s.Fills i pl x p)
    (tell : Option FailReason) : s.expel i tell = (s.outOfCircuit i).positionLost pl.slot pl.position tell := by
  simp [State.expel, h.place, State.outOfCircuit]

/-- R113, R118: what a position that has lost its lane does, by the circuit. -/
theorem State.positionLost_of {s : State} {c : SlotId} {n : Nat} {x : Circuit} {q : Position}
    (hx : s.circuit c = some x) (hq : x.positions[n]? = some q) (tell : Option FailReason) :
    s.positionLost c n tell =
      match x.role with
      | .origin => if x.state = .proposed ∨ q.repair = .proposed then s else s.pick c n
      | .answer =>
          match tell with
          | some r => if x.state = .training ∧ q.repair = .none then s.send (.laneFail x.tag (byteOf n) r) else s
          | none => s := by
  simp only [State.positionLost, hx, State.position_eq hx, hq] <;> rfl

theorem Circuit.state_ne_proposed {x : Circuit} (live : x.live = true) : x.state ≠ .proposed := by
  intro e
  simp [Circuit.live, e] at live

theorem List.filter_ne_self {α : Type} [DecidableEq α] {l : List α} {a : α} (h : a ∉ l) :
    (l.filter fun b => decide (b ≠ a)) = l :=
  List.filter_eq_self.mpr fun b hb => by simp only [decide_eq_true_eq]; rintro rfl; exact h hb

/-- A lane expelled from a position that makes no pick and tells nobody: it is out of its circuit, and that is all. -/
theorem State.Fills.expel_quiet {s : State} {i : LaneId} {pl : Place} {x : Circuit} {p : Position}
    (h : s.Fills i pl x p) (w : x.role = .answer ∨ x.state = .proposed ∨ p.repair = .proposed) :
    s.expel i none = s.outOfCircuit i := by
  rw [h.expel, State.positionLost_of h.circuit_outOfCircuit (Circuit.getElem?_without h.position)]
  cases e : (x.without pl).role
  · have e : x.role = .origin := e
    rw [e] at w
    exact if_pos (by simpa [Circuit.without] using w)
  · rfl

/-- A lane expelled from a live origin position whose AMEND is not awaited: the position makes a pick. -/
theorem State.Fills.expel_picks {s : State} {i : LaneId} {pl : Place} {x : Circuit} {p : Position}
    (h : s.Fills i pl x p) (origin : x.role = .origin) (live : x.live = true) (free : p.repair ≠ .proposed)
    (tell : Option FailReason) : s.expel i tell = (s.outOfCircuit i).pick pl.slot pl.position := by
  rw [h.expel, State.positionLost_of h.circuit_outOfCircuit (Circuit.getElem?_without h.position)]
  have e : (x.without pl).role = .origin := origin
  rw [e]
  exact if_neg (by simpa [Circuit.without, free] using Circuit.state_ne_proposed live)

/-- The pick of a position that has just lost its lane, with room for its message. -/
theorem State.Fills.picked_outOfCircuit {s : State} {i : LaneId} {pl : Place} {x : Circuit} {p : Position}
    (h : s.Fills i pl x p) (live : x.live = true) (few : p.attempts < 3) (out : i ∉ s.pool) (nodup : s.pool.Nodup)
    (v : s.scratch.overflow = false) (room : s.Room 1) :
    s.Picked ((s.outOfCircuit i).pick pl.slot pl.position) pl.slot pl.position x (p.without pl.role) s.pool []
      ∧ (s.outOfCircuit i).PickFrame ((s.outOfCircuit i).pick pl.slot pl.position) pl.slot pl.position (x.without pl)
      ∧ (s.outOfCircuit i).pool = s.pool := by
  have hx := h.circuit_outOfCircuit
  have hq := Circuit.getElem?_without h.position
  have room' : (s.outOfCircuit i).Room 1 := by simpa [State.Room] using room
  have pool : (s.outOfCircuit i).pool = s.pool := by rw [State.pool_outOfCircuit, List.filter_ne_self out]
  have picked := State.picked_pick hx hq live (by simpa using few) (by rw [pool]; exact nodup) (by simpa using v) room'
  rw [pool] at picked
  exact ⟨picked.behind (by simp) (by simp) rfl, State.frame_pick hx hq live (by simpa using few) room', pool⟩

end Sys2Proof.Machine
end

section
/-! SUPPORT. Sys2Proof/Proofs/Fences: UNFENCE_LANE (R18), and FENCE and UNFENCE from the peer (R13, R14). -/

namespace Sys2Proof.Machine

open Sys2Proof

/-! ### Requests that name a lane -/

/-- The blocks' work leaves a port's dispatched request where it is. -/
theorem State.Within.asks {s t : State} (w : s.Within t) {h : PortId} {k : ReqKind} {tag : Byte} {ps : List Byte}
    (a : s.Asks h k tag ps) : t.Asks h k tag ps := by
  obtain ⟨ns, e⟩ := w.port h
  rw [State.Asks, e]
  exact a

/-- R154: the reply stands in the port's reply slot. -/
@[simp] theorem State.link_answered (s : State) (h : PortId) (k : ReqKind) (tag : Byte) (st : Status) (rs : List Byte) :
    ((s.answered h k tag st rs).port h).link = .replied ⟨k.code, tag, st, rs⟩ := by
  simp [State.answered]

/-- A reply touches no port's notices. -/
@[simp] theorem State.notices_answered (s : State) (h g : PortId) (k : ReqKind) (tag : Byte) (st : Status)
    (rs : List Byte) : ((s.answered h k tag st rs).port g).notices = (s.port g).notices := by
  rw [State.answered, State.port_modPort]
  split
  · rename_i e; rw [e]
  · rfl

/-- A reply is seen in the port alone. -/
@[simp] theorem State.answered_rest (s : State) (h : PortId) (k : ReqKind) (tag : Byte) (st : Status)
    (rs : List Byte) : s.SameView (s.answered h k tag st rs) :=
  ⟨rfl, rfl, rfl, rfl, rfl, rfl, rfl, rfl, rfl, rfl, rfl, rfl, fun _ => rfl, fun _ => rfl, fun _ => rfl⟩

@[simp] theorem State.scratch_answered (s : State) (h : PortId) (k : ReqKind) (tag : Byte) (st : Status)
    (rs : List Byte) : (s.answered h k tag st rs).scratch = s.scratch := rfl

/-- A lane number above T23 is BAD_REQUEST. -/
theorem State.takeLane1_bad {s : State} {h : PortId} {k : ReqKind} {tag b : Byte} (a : s.Asks h k tag [b])
    (act : LaneId → State) (big : 24 ≤ b.toNat) : s.takeLane1 h act [b] = s.answered h k tag .badRequest [] := by
  simp only [State.takeLane1, laneOfByte_of_ge big, State.reply_of_asks a]

/-- A request that names a lane is answered OK behind its effect, and the event ends. -/
theorem State.takeLane1_ok {s : State} {h : PortId} {k : ReqKind} {tag b : Byte} {act : LaneId → State} {i : LaneId}
    (e : b.toNat = i.val) (a : (act i).Asks h k tag [b]) :
    s.takeLane1 h act [b] = ((act i).answered h k tag .ok []).finish := by
  simp only [State.takeLane1, laneOfByte_of_lt e, State.reply_of_asks a]

/-- Nobody waits still where queue and seeking list stand as they were. -/
theorem State.NobodyWaits.congr {s t : State} (h : s.NobodyWaits) (queue : t.queue = s.queue)
    (seeking : t.seeking = s.seeking) : t.NobodyWaits :=
  ⟨seeking.trans h.1, by rw [queue]; exact h.2⟩

/-- The end of an event that neither lost the trunk nor asked for a dwell, while nobody waits. -/
theorem State.NobodyWaits.finish {s : State} (h : s.NobodyWaits) (loss : s.scratch.overflow = false)
    (grant : s.scratch.grant = false) : s.finish = s.unmark := by
  rw [State.finish_of_quiet s h loss, grant]
  rfl

/-! ### UNFENCE_LANE (R18) -/

/-- R18: a lane's record with its fail count reset. -/
def Lane.forgiven (l : Lane) : Lane := { l with failCount := 0 }

/-- R18: the lane's fence is cleared where it stood, and the lane released where nothing else holds it. -/
theorem State.unfenceByHost_of_fenced {s : State} {i : LaneId} (f : (s.lane i).localFence = true) :
    s.unfenceByHost i =
      let t := (s.modLane i Lane.forgiven).clearLocalFence i
      if (s.lane i).state = .quarantined ∧ (s.lane i).peerFence = false then State.freeLane .tail t i else t := by
  simp [State.unfenceByHost, f, State.lane_clearLocalFence, Lane.unfenced]; rfl

theorem State.unfenceByHost_of_unfenced {s : State} {i : LaneId} (f : (s.lane i).localFence = false) :
    s.unfenceByHost i = s.modLane i Lane.forgiven := by
  simp [State.unfenceByHost, f]; rfl

/-- Settles O34, by the local fence and by what else holds the lane. -/
theorem unfenceLaneTaken : Obligations.UnfenceLaneTaken := by
  intro s h tag b asks clear
  have taken : exec (.unfenceLane h) s = .next (s.takeLane1 h s.unfenceByHost [b]) :=
    congrArg Host.Outcome.next (State.takeRequest_of_asks asks _)
  rw [taken]
  refine ⟨fun big => by rw [State.takeLane1_bad asks _ big], fun i e => ⟨fun open_ => ?_, fun fenced room nobody => ?_⟩⟩
  · have asks' : (s.unfenceByHost i).Asks h .unfenceLane tag [b] :=
      ((kept_within s).unfenceByHost (.refl s) i).asks asks
    rw [State.takeLane1_ok e asks', State.unfenceByHost_of_unfenced open_, State.finish_of_unmarked _ (by exact clear)]
    rfl
  · have asks' : (s.unfenceByHost i).Asks h .unfenceLane tag [b] :=
      ((kept_within s).unfenceByHost (.refl s) i).asks asks
    rw [State.takeLane1_ok e asks', State.unfenceByHost_of_fenced fenced]
    obtain ⟨marks, placed⟩ := State.clearLocalFence_room (s.modLane i Lane.forgiven) i
      (by rw [State.modLane_scratch, clear]) room
    have lane := fun j => State.lane_clearLocalFence (s.modLane i Lane.forgiven) i j
    obtain ⟨_, _, _, queue, seeking, _, pool, _⟩ :=
      State.clearLocalFence_rest (s.modLane i Lane.forgiven) i
    rw [State.modLane_scratch, clear] at marks
    rw [byteOf_of_toNat e] at placed
    simp only [State.lane_modLane, ite_true] at lane
    generalize (s.modLane i Lane.forgiven).clearLocalFence i = t at *
    have own := lane i
    have other : ∀ j, j ≠ i → t.lane j = s.lane j := fun j ne => by rw [lane j, if_neg ne, if_neg ne]
    rw [if_pos rfl] at own
    dsimp only
    split
    · rename_i free
      have free_ne : ¬((s.lane i).state ≠ .quarantined ∨ (s.lane i).peerFence = true) := by simp [free]
      rw [State.NobodyWaits.finish (nobody.congr (by simpa using queue) (by simpa using seeking)) (by simp [marks])
        (by simp [marks])]
      refine ⟨_, rfl, by simp [ReqKind.code], ?_⟩
      simp only [State.unmark_rest, State.answered_rest, State.lane_freeLane, State.pool_freeLane, own, ite_true]
      exact ⟨rfl, rfl, rfl, fun j ne => by rw [if_neg ne, other j ne], placed, fun _ _ => ⟨rfl, by rw [pool]; rfl⟩,
        fun held => absurd held free_ne⟩
    · rename_i held
      rw [State.NobodyWaits.finish (nobody.congr (by simpa using queue) (by simpa using seeking)) (by simp [marks])
        (by simp [marks])]
      refine ⟨_, rfl, by simp [ReqKind.code], ?_⟩
      simp only [State.unmark_rest, State.answered_rest, own]
      exact ⟨rfl, rfl, rfl, other, placed, fun q f => absurd ⟨q, f⟩ held, fun _ => ⟨rfl, pool⟩⟩

end Sys2Proof.Machine
end

section
/-! SUPPORT. Sys2Proof/Proofs/PeerFences: FENCE and UNFENCE from the peer (R13, R14). -/

namespace Sys2Proof.Machine

open Sys2Proof

/-- A lane's record changed on a received message, and the marks cleared: only that record has changed. -/
theorem State.unmark_modLane_received {r : State} (clear : r.Unmarked) (i : LaneId) (f : Lane → Lane) :
    (r.received.modLane i f).unmark = r.modLane i f :=
  (r.modLane i f).clear_of_unmarked clear

/-- The end of a message's event whose owner has marked nothing. -/
theorem State.finish_of_received {r u : State} (clear : r.Unmarked) (e : u.scratch = r.received.scratch) :
    u.finish = u.unmark :=
  u.finish_of_clear ⟨true, e.trans (State.scratch_received clear)⟩

/-! ### FENCE (R13) -/

theorem State.takeFence_of_lane {s : State} {b : Byte} {i : LaneId} (e : b.toNat = i.val) :
    s.takeFence b = if (s.lane i).peerFence then s else s.fencedByPeer i := by
  simp only [State.takeFence, laneOfByte_of_lt e]

theorem State.fencedByPeer_alone {s : State} {i : LaneId} (h : (s.lane i).state = .offline
    ∨ (s.lane i).state = .quarantined ∨ (s.lane i).state = .active ∨ (s.lane i).state = .failing
    ∨ (s.lane i).state = .releasing) : s.fencedByPeer i = s.setPeerFence i := by
  rcases h with e | e | e | e | e <;> simp [State.fencedByPeer, e]

theorem State.fencedByPeer_free {s : State} {i : LaneId} (h : (s.lane i).state = .free) :
    s.fencedByPeer i = (s.setPeerFence i).quarantine i := by
  simp [State.fencedByPeer, h]

/-- A lane held for a circuit, before it is ACTIVE. -/
abbrev LaneState.held (st : LaneState) : Prop := st = .claimed ∨ st = .training ∨ st = .qualified

theorem State.fencedByPeer_held {s : State} {i : LaneId} (h : (s.lane i).state.held) :
    s.fencedByPeer i = (s.setPeerFence i).expel i none := by
  rcases h with e | e | e <;> simp [State.fencedByPeer, e]

theorem State.Fills.setPeerFence {s : State} {i : LaneId} {pl : Place} {x : Circuit} {p : Position}
    (h : s.Fills i pl x p) : (s.setPeerFence i).Fills i pl x p :=
  h.congr (by simp [State.lane_setPeerFence]) rfl

/-- The record of a lane that its peer fenced out of its circuit. -/
theorem State.lane_setPeerFence_outOfCircuit (s : State) (i j : LaneId) :
    ((s.setPeerFence i).outOfCircuit i).lane j =
      if j = i then ({ s.lane i with peerFence := true } : Lane).clearPlace.enter .quarantined else s.lane j := by
  rw [State.lane_outOfCircuit, State.lane_setPeerFence, State.lane_setPeerFence]
  split
  · rw [if_pos rfl]
  · rfl

/-! ### UNFENCE (R14) -/

theorem State.takeUnfence_of_lane {s : State} {b : Byte} {i : LaneId} (e : b.toNat = i.val) :
    s.takeUnfence b = if (s.lane i).peerFence then s.unfencedByPeer i else s := by
  simp only [State.takeUnfence, laneOfByte_of_lt e]

/-- R14: a lane's record without its peer fence. -/
def Lane.peerUnfenced (l : Lane) : Lane := { l with peerFence := false }

theorem State.unfencedByPeer_of (s : State) (i : LaneId) : s.unfencedByPeer i =
    if (s.lane i).state = .quarantined ∧ (s.lane i).localFence = false then
      State.freeLane .tail (s.modLane i Lane.peerUnfenced) i
    else s.modLane i Lane.peerUnfenced := by
  simp [State.unfencedByPeer]
  rfl

/-- Settles O52, by the lane's state and its fences. -/
theorem peerFences : Obligations.PeerFences := by
  rintro s r q a b why inOrder rfl clear
  have clear : (s.counted a).Unmarked := (s.scratch_counted a).trans clear
  have fence : exec (.fence q a b why) s = .next ((s.counted a).received.takeFence b).finish :=
    congrArg Host.Outcome.next (State.receive_inOrder inOrder a _)
  have unfence : exec (.unfence q a b) s = .next ((s.counted a).received.takeUnfence b).finish :=
    congrArg Host.Outcome.next (State.receive_inOrder inOrder a _)
  rw [fence, unfence]
  generalize s.counted a = r at clear
  have idle := State.finish_received clear
  refine ⟨fun big => ?_, fun i e => ⟨fun set => ?_, fun unset => ?_, fun unset st => ?_, fun unset st => ?_, ?_,
    fun set held => ?_, fun set quar unfenced nobody => ?_⟩⟩
  · simp only [State.takeFence, State.takeUnfence, laneOfByte_of_ge big, idle, and_self]
  · rw [State.takeFence_of_lane e, if_pos (by simpa using set), idle]
  · rw [State.takeUnfence_of_lane e, if_neg (by simpa using unset), idle]
  · rw [State.takeFence_of_lane e, if_neg (by simpa using unset), State.fencedByPeer_alone (by simpa using st),
      State.finish_of_received clear (by simp)]
    exact congrArg _ (State.unmark_modLane_received clear i _)
  · rw [State.takeFence_of_lane e, if_neg (by simpa using unset), State.fencedByPeer_free (by simpa using st),
      State.finish_of_received clear (by simp)]
    refine ⟨_, rfl, ?_⟩
    simp only [State.unmark_rest, State.lane_quarantine, State.pool_quarantine, State.lane_setPeerFence, ite_true,
      State.received_view]
    exact ⟨rfl, rfl, rfl, fun j ne => by rw [if_neg ne, if_neg ne], rfl⟩
  · intro pl x p left unset st place circuit position hleft
    rw [State.takeFence_of_lane e, if_neg (by simpa using unset), State.fencedByPeer_held (by simpa using st)]
    have fills : (r.received.setPeerFence i).Fills i pl x p :=
      State.Fills.setPeerFence ⟨place, circuit, position⟩
    have out : ∀ j, ((r.received.setPeerFence i).outOfCircuit i).lane j =
        if j = i then ({ r.lane i with peerFence := true } : Lane).clearPlace.enter .quarantined else r.lane j :=
      State.lane_setPeerFence_outOfCircuit r.received i
    have own := (out i).trans (if_pos rfl)
    rw [Position.eq_without hleft]
    constructor
    · intro quiet
      rw [fills.expel_quiet quiet, State.finish_of_received clear (by simp)]
      refine ⟨_, x.without pl, rfl, ?_⟩
      simp only [State.unmark_rest, State.outOfCircuit_rest, own, fills.circuit_outOfCircuit,
        Circuit.getElem?_without position]
      exact ⟨rfl, rfl, rfl, rfl, rfl, fun j ne => (out j).trans (if_neg ne), rfl, trivial, rfl, trivial⟩
    · intro origin live free few outside nodup room
      obtain ⟨picked, frame, pool⟩ := fills.picked_outOfCircuit live few outside nodup
        (by simp [State.scratch_received clear]) room
      rw [fills.expel_picks origin live free, State.finish_of_received clear (frame.scratch.trans (by simp))]
      refine ⟨_, rfl, ?_⟩
      have own' := (frame.lane i (by rw [pool]; exact outside)).trans own
      have other : ∀ j, j ≠ i → j ∉ r.pool → _ := fun j ne no =>
        (frame.lane j (by rw [pool]; exact no)).trans ((out j).trans (if_neg ne))
      simp only [State.unmark_rest, own']
      have picked' : r.Picked _ pl.slot pl.position x (p.without pl.role) r.pool [] :=
        picked.behind (List.append_nil _).symm rfl rfl
      exact ⟨rfl, rfl, rfl, rfl, rfl, other, picked'.seen (State.unmark_rest _)⟩
  · rw [State.takeUnfence_of_lane e, if_pos (by simpa using set), State.unfencedByPeer_of,
      if_neg (by rcases held with h | h <;> simp [h]), State.finish_of_received clear (by simp)]
    exact congrArg _ (State.unmark_modLane_received clear i _)
  · rw [State.takeUnfence_of_lane e, if_pos (by simpa using set), State.unfencedByPeer_of,
      if_pos (by simp [quar, unfenced])]
    have marks := State.scratch_received clear
    have nobody' : (State.freeLane .tail (r.received.modLane i Lane.peerUnfenced) i).NobodyWaits := nobody.congr rfl rfl
    rw [nobody'.finish (by simp [marks]) (by simp [marks])]
    refine ⟨_, rfl, ?_⟩
    simp only [State.unmark_rest, State.lane_freeLane, State.pool_freeLane, State.lane_modLane, ite_true]
    exact ⟨rfl, rfl, trivial, fun j ne => by rw [if_neg ne, if_neg ne]; rfl, rfl⟩

end Sys2Proof.Machine
end

section
/-! SUPPORT. Sys2Proof/Proofs/FenceLane: FENCE_LANE by the lane's state (R17), with the declaration of FAILING
(R104, R110, R112). -/

namespace Sys2Proof.Machine

open Sys2Proof

/-! ### Lanes bound in the crosspoint (R10) -/

/-- R10: an ACTIVE or FAILING lane is bound to the host lane of its position. -/
theorem State.Fills.boundTo {s : State} {i : LaneId} {pl : Place} {x : Circuit} {p : Position} (h : s.Fills i pl x p)
    (st : (s.lane i).state = .active ∨ (s.lane i).state = .failing) : s.boundTo i = some (x.near, p.hostLane) := by
  simp [State.boundTo, st, h.place, h.circuit, h.position]

theorem State.boundTo_of_other {s : State} {i : LaneId}
    (st : ¬((s.lane i).state = .active ∨ (s.lane i).state = .failing)) : s.boundTo i = none := by
  simp only [State.boundTo, st, if_false]

/-! ### Lanes fenced out of their circuit (R11, R17) -/

theorem State.Fills.setLocalFence {s : State} {i : LaneId} {pl : Place} {x : Circuit} {p : Position}
    (h : s.Fills i pl x p) (t : Option Tag) (w : FenceCause) : (s.setLocalFence i t w).Fills i pl x p :=
  h.congr (by simp [State.lane_setLocalFence, Lane.fenceLocally]) (by simp)

/-- The record of a lane that this side fenced out of its circuit. -/
theorem State.lane_fenced_outOfCircuit (s : State) (i j : LaneId) (t : Option Tag) (w : FenceCause) :
    ((s.setLocalFence i t w).outOfCircuit i).lane j =
      if j = i then ((s.lane i).fenceLocally s.params).clearPlace.enter .quarantined else s.lane j := by
  rw [State.lane_outOfCircuit, State.lane_setLocalFence, State.lane_setLocalFence]
  split
  · rw [if_pos rfl]
  · rfl

/-- R113, R118: an answering position that is not in repair tells the origin in the setup phase; any other waits. -/
theorem State.positionLost_waits {s : State} {c : SlotId} {n : Nat} {x : Circuit} {q : Position}
    (hx : s.circuit c = some x) (hq : x.positions[n]? = some q) (w : x.role = .answer ∨ x.state = .proposed)
    (r : FailReason) : s.positionLost c n (some r) =
      if x.role = .answer ∧ x.state = .training ∧ q.repair = .none then s.send (.laneFail x.tag (byteOf n) r) else s := by
  rw [State.positionLost_of hx hq]
  cases role : x.role
  · rw [role] at w
    have proposed : x.state = .proposed := by simpa using w
    simp [proposed]
  · simp

/-! ### An ACTIVE lane declared FAILING (R104) -/

/-- R104 steps 1 and 2: the lane is FAILING with its reason, and the log says so. -/
def State.declared (s : State) (i : LaneId) (r : FailReason) (figure : Byte) : State :=
  let t := (s.modLane i fun l => { l with failure := some r }).moveLane i .failing
  t.log .laneFailing (some i) (t.ownerTag i) (detail2 (failByte r) figure)

/-- The record of an ACTIVE lane declared FAILING. -/
def Lane.declared (r : FailReason) (l : Lane) : Lane :=
  { l with state := .failing, failure := some r, strikes := 0, run := l.run + 1, training := none }

theorem State.lane_declared {s : State} {i : LaneId} (active : (s.lane i).state = .active) (r : FailReason)
    (figure : Byte) (j : LaneId) :
    (s.declared i r figure).lane j = if j = i then (s.lane i).declared r else s.lane j := by
  refine (State.lane_moveLane _ i j .failing).trans ?_
  rw [State.lane_modLane, State.lane_modLane, if_pos rfl]
  split
  · simp [Lane.enter, Lane.declared, active]
  · rfl

/-- `t` differs from `s` in lane records, pool, dwell queue and log alone, as far as the statements read it. -/
abbrev State.LanesAlone (s t : State) : Prop :=
  t.side = s.side ∧ t.params = s.params ∧ t.trunk = s.trunk ∧ t.queue = s.queue ∧ t.seeking = s.seeking
    ∧ t.slots = s.slots ∧ t.ports = s.ports ∧ t.sendQueue = s.sendQueue ∧ t.outstanding = s.outstanding
    ∧ t.scratch = s.scratch ∧ t.placed = s.placed ∧ ∀ c, t.circuit c = s.circuit c

@[simp] theorem State.declared_rest (s : State) (i : LaneId) (r : FailReason) (figure : Byte) :
    s.LanesAlone (s.declared i r figure) :=
  ⟨rfl, rfl, rfl, rfl, rfl, rfl, rfl, rfl, rfl, rfl, rfl, fun _ => rfl⟩

theorem State.pool_declared (s : State) (i : LaneId) (r : FailReason) (figure : Byte) :
    (s.declared i r figure).pool = s.pool.filter fun j => decide (j ≠ i) := rfl

theorem State.Fills.declared {s : State} {i : LaneId} {pl : Place} {x : Circuit} {p : Position} (h : s.Fills i pl x p)
    (r : FailReason) (figure : Byte) : (s.declared i r figure).Fills i pl x p := by
  refine h.congr ?_ rfl
  refine (congrArg Lane.place (State.lane_moveLane _ i i .failing)).trans ?_
  simp [Lane.enter]

/-- R104: the entry of the declaration names the lane, its circuit and the figure. -/
theorem State.Fills.ring_declared {s : State} {i : LaneId} {pl : Place} {x : Circuit} {p : Position}
    (h : s.Fills i pl x p) (r : FailReason) (figure : Byte) :
    (s.declared i r figure).ring.getLast?.map (fun e => (e.kind, e.lane, e.tag, e.detail))
      = some (.laneFailing, some i, some x.tag, detail2 (failByte r) figure) := by
  have tag : ((s.modLane i fun l => { l with failure := some r }).moveLane i .failing).ownerTag i = some x.tag :=
    (h.declared r figure).ownerTag
  unfold State.declared
  dsimp only
  rw [State.getLast?_log, tag]
  rfl

theorem State.Fills.declareFailing {s : State} {i : LaneId} {pl : Place} {x : Circuit} {p : Position}
    (h : s.Fills i pl x p) (r : FailReason) (figure : Byte) :
    s.declareFailing i r figure = (s.declared i r figure).laneFailed i r pl := by
  have place := (h.declared r figure).place
  unfold State.declared at place ⊢
  unfold State.declareFailing
  dsimp only at place ⊢
  rw [place]

/-- R110, R112: a circuit whose repair has begun. -/
def Circuit.repairing (x : Circuit) : Circuit := { x with state := if x.state = .up then .repairing else x.state }

/-- R110, R112: an UP circuit becomes REPAIRING and its near port is told; any other stays. -/
theorem State.markRepairing_of {s : State} {c : SlotId} {x : Circuit} (h : s.circuit c = some x) :
    s.markRepairing c = if x.state = .up then (s.setCircuit c x.repairing).notify x.near (.circuitRepairing c) else s := by
  unfold State.markRepairing
  rw [h]
  dsimp only
  split
  · rename_i up
    simp [Circuit.repairing, up]
  · rfl

theorem State.circuit_markRepairing {s : State} {c : SlotId} {x : Circuit} (h : s.circuit c = some x) :
    (s.markRepairing c).circuit c = some x.repairing := by
  rw [State.markRepairing_of h]
  split
  · simp
  · rename_i up
    simp [h, Circuit.repairing, up]

/-- `t` differs from `s` in circuits and notices alone, as far as the statements read it. -/
abbrev State.NoticeAlone (s t : State) : Prop :=
  t.side = s.side ∧ t.params = s.params ∧ t.trunk = s.trunk ∧ t.queue = s.queue ∧ t.seeking = s.seeking
    ∧ t.lanes = s.lanes ∧ t.pool = s.pool ∧ t.ring = s.ring ∧ t.sendQueue = s.sendQueue ∧ t.outstanding = s.outstanding
    ∧ t.scratch = s.scratch ∧ t.placed = s.placed ∧ ∀ i, t.lane i = s.lane i

theorem State.noticeAlone_setCircuit_notify (s : State) (c : SlotId) (x : Circuit) (h : PortId) (n : Notice) :
    s.NoticeAlone ((s.setCircuit c x).notify h n) := by
  obtain ⟨ps, e⟩ := (s.setCircuit c x).notify_eq h n
  rw [e]
  exact ⟨rfl, rfl, rfl, rfl, rfl, rfl, rfl, rfl, rfl, rfl, rfl, rfl, fun _ => rfl⟩

@[simp] theorem State.markRepairing_rest (s : State) (c : SlotId) : s.NoticeAlone (s.markRepairing c) := by
  unfold State.markRepairing
  split
  · exact ⟨rfl, rfl, rfl, rfl, rfl, rfl, rfl, rfl, rfl, rfl, rfl, rfl, fun _ => rfl⟩
  · split
    · exact s.noticeAlone_setCircuit_notify c _ _ _
    · exact ⟨rfl, rfl, rfl, rfl, rfl, rfl, rfl, rfl, rfl, rfl, rfl, rfl, fun _ => rfl⟩

theorem State.notices_markRepairing {s : State} {c : SlotId} {x : Circuit} (h : s.circuit c = some x)
    (up : x.state = .up) (present : (s.port x.near).link ≠ .absent) :
    ((s.markRepairing c).port x.near).notices = queueNotice (s.port x.near).notices (.circuitRepairing c) := by
  rw [State.markRepairing_of h, if_pos up, State.port_notify, if_pos ⟨rfl, present⟩]
  rfl

/-- R110: the repair of a position in NONE begins with a pick. -/
theorem State.startRepair_of {s : State} {c : SlotId} {n : Nat} {x : Circuit} {q : Position} (hx : s.circuit c = some x)
    (hq : x.positions[n]? = some q) (idle : q.repair = .none) (held : q.dropped = false) :
    s.startRepair c n = (s.markRepairing c).pick c n := by
  simp [State.startRepair, State.position_eq hx, hq, idle, held]

/-- R112: a position in repair goes on with it. -/
theorem State.startRepair_of_busy {s : State} {c : SlotId} {n : Nat} {x : Circuit} {q : Position}
    (hx : s.circuit c = some x) (hq : x.positions[n]? = some q) (busy : q.repair ≠ .none) : s.startRepair c n = s := by
  simp [State.startRepair, State.position_eq hx, hq, busy]

/-- R104 step 3: what the circuit of a lane declared FAILING does. -/
theorem State.Fills.laneFailed {s : State} {i : LaneId} {pl : Place} {x : Circuit} {p : Position}
    (h : s.Fills i pl x p) (r : FailReason) : s.laneFailed i r pl =
      if x.state = .training then
        ((s.unname i).leaveAll [i] false .tail).positionLost pl.slot pl.position (some r)
      else if x.upPhase = true then
        match x.role with
        | .origin => s.startRepair pl.slot pl.position
        | .answer =>
            if p.repair = .none then (s.send (.laneFail x.tag (byteOf pl.position) r)).markRepairing pl.slot else s
      else s := by
  simp only [State.laneFailed, h.circuit, State.position_eq h.circuit, h.position] <;> rfl

/-- R15: a lane with a failure reason that leaves alone is fenced for it and QUARANTINED. -/
theorem State.leaveAll_failed {s : State} {i : LaneId} {r : FailReason} (h : (s.lane i).failure = some r) (b : Bool)
    (e : PoolEnd) : s.leaveAll [i] b e = (s.setLocalFence i (s.ownerTag i) (.failure r)).quarantine i := by
  have left : State.leaveFenced b s i = (s.setLocalFence i (s.ownerTag i) (.failure r)).quarantine i := by
    simp [State.leaveFenced, h]
  have gone : ([i].filter fun j => ((((s.setLocalFence i (s.ownerTag i) (.failure r)).quarantine i).lane j).state
      != .quarantined)) = [] := by
    simp [State.lane_quarantine, Lane.enter]
  unfold State.leaveAll
  simp only [List.foldl_cons, List.foldl_nil, left, gone, List.reverse_nil]
  cases e <;> rfl

/-! ### FENCE_LANE (R17) -/

/-- FENCE_LANE whose effect marks nothing: the effect, and the reply OK. -/
theorem exec_fenceLane {s : State} {h : PortId} {tag b : Byte} {i : LaneId} (asks : s.Asks h .fenceLane tag [b])
    (e : b.toNat = i.val) (calm : (s.fenceByHost i).Unmarked) :
    exec (.fenceLane h) s = .next ((s.fenceByHost i).answered h .fenceLane tag .ok []) := by
  have asks' : (s.fenceByHost i).Asks h .fenceLane tag [b] := ((kept_within s).fenceByHost (.refl s) i).asks asks
  refine congrArg Host.Outcome.next ((State.takeRequest_of_asks asks _).trans ?_)
  rw [State.takeLane1_ok e asks']
  exact State.finish_of_unmarked _ calm

/-- R17: outside circuits. -/
theorem State.fenceByHost_outside {s : State} {i : LaneId}
    (st : (s.lane i).state = .offline ∨ (s.lane i).state = .free ∨ (s.lane i).state = .quarantined)
    (unset : (s.lane i).localFence = false) : s.fenceByHost i =
      if (s.lane i).state = .free then (s.setLocalFence i none (.failure .host)).quarantine i
      else s.setLocalFence i none (.failure .host) := by
  rcases st with e | e | e <;> simp [State.fenceByHost, e, unset]

/-- R17: a lane held for a circuit before it is ACTIVE. -/
theorem State.fenceByHost_held {s : State} {i : LaneId} (st : (s.lane i).state.held) :
    s.fenceByHost i = (s.setLocalFence i (s.ownerTag i) (.failure .host)).expel i (some .host) := by
  rcases st with e | e | e <;> simp [State.fenceByHost, e]

theorem State.fenceByHost_active {s : State} {i : LaneId} (st : (s.lane i).state = .active) :
    s.fenceByHost i = s.declareFailing i .host 0 := by
  simp [State.fenceByHost, st]

end Sys2Proof.Machine
end

section
/-! SUPPORT. Sys2Proof/Proofs/FenceLaneTaken: FENCE_LANE, clause by clause (R17). -/

namespace Sys2Proof.Machine

open Sys2Proof

section clauses

variable {s : State} {h : PortId} {tag b : Byte} {i : LaneId} {pl : Place} {x : Circuit} {p : Position}

/-- R17: a lane outside circuits takes the fence; a FREE one leaves the pool as QUARANTINED. -/
theorem fenceLane_outside (asks : s.Asks h .fenceLane tag [b]) (clear : s.Unmarked) (e : b.toNat = i.val)
    (st : (s.lane i).state = .offline ∨ (s.lane i).state = .free ∨ (s.lane i).state = .quarantined)
    (unset : (s.lane i).localFence = false) (room : s.sendQueue.length < Config.sendCapacity) :
    ∃ t, exec (.fenceLane h) s = .next t ∧ (t.port h).link = .replied ⟨0x0A, tag, .ok, []⟩
      ∧ t.lane i = (if (s.lane i).state = .free then ((s.lane i).fenceLocally s.params).clearPlace.enter .quarantined
          else (s.lane i).fenceLocally s.params)
      ∧ ((s.lane i).state = .free → t.pool = s.pool.filter fun j => decide (j ≠ i))
      ∧ (∀ j, j ≠ i → t.lane j = s.lane j)
      ∧ t.ring = (s.setLocalFence i none (.failure .host)).ring
      ∧ t.placed = s.placed ++ (if s.trunk = .up then [.fence b (.failure .host)] else []) := by
  obtain ⟨marks, placed⟩ := s.setLocalFence_room i none (.failure .host) (by rw [clear]) room
  rw [byteOf_of_toNat e] at placed
  have form := State.fenceByHost_outside st unset
  have calm : (s.fenceByHost i).Unmarked := by
    rw [form]
    split
    · exact (State.quarantine_scratch _ i).trans (marks.trans clear)
    · exact marks.trans clear
  refine ⟨_, exec_fenceLane asks e calm, by simp [ReqKind.code], ?_⟩
  simp only [State.answered_rest, form]
  split
  · simp only [State.lane_quarantine, State.pool_quarantine, State.lane_setLocalFence, State.setLocalFence_rest, ite_true,
      State.quarantine_ring, State.placed_quarantine]
    exact ⟨trivial, fun _ => trivial, fun j ne => by rw [if_neg ne, if_neg ne], trivial, placed⟩
  · rename_i held
    simp only [State.lane_setLocalFence, ite_true]
    exact ⟨trivial, fun free => absurd free held, fun j ne => if_neg ne, trivial, placed⟩

/-- What a lane fenced out of its circuit by this side looks like: QUARANTINED, its fence and raised count, no place. -/
abbrev Lane.FencedOut (l l' : Lane) (p : Params) : Prop :=
  l' = (l.fenceLocally p).clearPlace.enter .quarantined

/-- R17, R113, R114: a held lane fenced at a live origin position: it leaves, and the position makes its pick unless its
AMEND is awaited. -/
theorem fenceLane_held_origin (asks : s.Asks h .fenceLane tag [b]) (clear : s.Unmarked) (e : b.toNat = i.val)
    (fills : s.Fills i pl x p) (st : (s.lane i).state.held) (out : i ∉ s.pool) (nodup : s.pool.Nodup) (room : s.Room 2)
    (origin : x.role = .origin) (live : x.live = true) (few : p.repair = .proposed ∨ p.attempts < 3) :
    ∃ t, exec (.fenceLane h) s = .next t ∧ (t.port h).link = .replied ⟨0x0A, tag, .ok, []⟩
      ∧ (s.lane i).FencedOut (t.lane i) s.params
      ∧ t.ring = (s.setLocalFence i (some x.tag) (.failure .host)).ring
      ∧ (∀ j, j ≠ i → j ∉ s.pool → t.lane j = s.lane j)
      ∧ (p.repair ≠ .proposed →
          s.Picked t pl.slot pl.position x (p.without pl.role) s.pool [.fence b (.failure .host)])
      ∧ (p.repair = .proposed → t.placed = s.placed ++ [.fence b (.failure .host)]
          ∧ ∃ y, t.circuit pl.slot = some y ∧ y.positions[pl.position]? = some (p.without pl.role)) := by
  obtain ⟨marks, placed⟩ := s.setLocalFence_room i (some x.tag) (.failure .host) (by rw [clear]) room.lt
  rw [byteOf_of_toNat e, if_pos room.1] at placed
  have form := State.fenceByHost_held st
  rw [fills.ownerTag] at form
  have fills' := fills.setLocalFence (some x.tag) (.failure .host)
  have lane := fun j => s.lane_fenced_outOfCircuit i j (some x.tag) (.failure .host)
  have own := (lane i).trans (if_pos rfl)
  by_cases awaited : p.repair = .proposed
  · have quiet : s.fenceByHost i = (s.setLocalFence i (some x.tag) (.failure .host)).outOfCircuit i := by
      rw [form, fills'.expel, State.positionLost_of fills'.circuit_outOfCircuit
        (Circuit.getElem?_without fills'.position)]
      have role : (x.without pl).role = .origin := origin
      rw [role]
      exact if_pos (.inr (by simpa using awaited))
    refine ⟨_, exec_fenceLane asks e (by rw [quiet]; simpa [State.Unmarked, marks] using clear), by simp [ReqKind.code], ?_⟩
    simp only [State.answered_rest, quiet, State.outOfCircuit_rest, fills'.circuit_outOfCircuit]
    exact ⟨own, trivial, fun j ne _ => (lane j).trans (if_neg ne), fun no => absurd awaited no,
      fun _ => ⟨placed, _, rfl, Circuit.getElem?_without fills.position⟩⟩
  · have pool : (s.setLocalFence i (some x.tag) (.failure .host)).pool = s.pool := by simp
    have few : p.attempts < 3 := few.resolve_left awaited
    obtain ⟨picked, frame, pool'⟩ := fills'.picked_outOfCircuit live few (by rw [pool]; exact out)
      (by rw [pool]; exact nodup) (by rw [marks, clear]) (room.setLocalFence i _ _)
    rw [pool] at pool' picked
    rw [fills'.expel_picks origin live awaited] at form
    have calm : (s.fenceByHost i).Unmarked := by
      rw [form, State.Unmarked, frame.scratch]
      simpa [marks] using clear
    refine ⟨_, exec_fenceLane asks e calm, by simp [ReqKind.code], ?_⟩
    simp only [State.answered_rest, form]
    refine ⟨(frame.lane i (by rw [pool']; exact out)).trans own, frame.ring.trans (by simp),
      fun j ne no => (frame.lane j (by rw [pool']; exact no)).trans ((lane j).trans (if_neg ne)),
      fun _ => ?_, fun yes => absurd yes awaited⟩
    exact (picked.behind placed (by simp) rfl).seen (State.answered_rest _ _ _ _ _ _)

/-- R17, R113, R118: a held lane fenced at an answering or a PROPOSED circuit's position: it leaves, and an answering
position that is not in repair tells the origin in the setup phase. -/
theorem fenceLane_held_waits (asks : s.Asks h .fenceLane tag [b]) (clear : s.Unmarked) (e : b.toNat = i.val)
    (fills : s.Fills i pl x p) (st : (s.lane i).state.held) (room : s.Room 2)
    (waits : x.role = .answer ∨ x.state = .proposed) :
    ∃ t, exec (.fenceLane h) s = .next t ∧ (t.port h).link = .replied ⟨0x0A, tag, .ok, []⟩
      ∧ (s.lane i).FencedOut (t.lane i) s.params
      ∧ t.ring = (s.setLocalFence i (some x.tag) (.failure .host)).ring
      ∧ (∀ j, j ≠ i → t.lane j = s.lane j)
      ∧ t.circuit pl.slot = some (x.without pl)
      ∧ t.placed = s.placed ++ .fence b (.failure .host) ::
          (if x.role = .answer ∧ x.state = .training ∧ p.repair = .none then
            [.laneFail x.tag (byteOf pl.position) .host] else []) := by
  obtain ⟨marks, placed⟩ := s.setLocalFence_room i (some x.tag) (.failure .host) (by rw [clear]) room.lt
  rw [byteOf_of_toNat e, if_pos room.1] at placed
  have form := State.fenceByHost_held st
  rw [fills.ownerTag] at form
  have fills' := fills.setLocalFence (some x.tag) (.failure .host)
  have lane := fun j => s.lane_fenced_outOfCircuit i j (some x.tag) (.failure .host)
  have own := (lane i).trans (if_pos rfl)
  have lost := State.positionLost_waits fills'.circuit_outOfCircuit (Circuit.getElem?_without fills'.position) waits .host
  rw [(Position.without_rest pl.role p).2.1] at lost
  rw [fills'.expel, lost] at form
  have room' : ((s.setLocalFence i (some x.tag) (.failure .host)).outOfCircuit i).Room 1 := by
    simpa [State.Room] using room.setLocalFence i (some x.tag) (.failure .host)
  have circuit := fills'.circuit_outOfCircuit
  have marks' : ((s.setLocalFence i (some x.tag) (.failure .host)).outOfCircuit i).scratch = {} := by
    simpa [marks] using clear
  have placed' : ((s.setLocalFence i (some x.tag) (.failure .host)).outOfCircuit i).placed
      = s.placed ++ [.fence b (.failure .host)] := by simpa [FenceCause.reason] using placed
  have ring : ((s.setLocalFence i (some x.tag) (.failure .host)).outOfCircuit i).ring
      = (s.setLocalFence i (some x.tag) (.failure .host)).ring := by simp
  have other : ∀ j, j ≠ i → _ := fun j ne => (lane j).trans (if_neg ne)
  generalize (s.setLocalFence i (some x.tag) (.failure .host)).outOfCircuit i = u at *
  have form : s.fenceByHost i = if x.role = .answer ∧ x.state = .training ∧ p.repair = .none then
      u.send (.laneFail x.tag (byteOf pl.position) .host) else u := form
  have calm : (s.fenceByHost i).Unmarked := by
    rw [form]
    split
    · exact (State.send_scratch _ _ room'.lt).trans marks'
    · exact marks'
  refine ⟨_, exec_fenceLane asks e calm, by simp [ReqKind.code], ?_⟩
  simp only [State.answered_rest, form]
  split
  · rw [State.placed_send _ _ room'.1 (by rw [marks']) room'.lt, placed']
    simp only [State.send_lane, State.send_ring, State.send_circuit]
    exact ⟨own, ring, other, circuit, by simp⟩
  · exact ⟨own, ring, other, circuit, placed'⟩

/-- R112: an ACTIVE lane fenced while its position is in repair: the repair goes on. -/
theorem fenceLane_active_inRepair (asks : s.Asks h .fenceLane tag [b]) (clear : s.Unmarked) (e : b.toNat = i.val)
    (fills : s.Fills i pl x p) (active : (s.lane i).state = .active) (state : x.state = .repairing)
    (busy : p.repair ≠ .none) :
    exec (.fenceLane h) s = .next ((s.declared i .host 0).answered h .fenceLane tag .ok []) := by
  have fills' := fills.declared .host 0
  have form : s.fenceByHost i = s.declared i .host 0 := by
    rw [State.fenceByHost_active active, fills.declareFailing, fills'.laneFailed, if_neg (by simp [state]),
      if_pos (by simp [Circuit.upPhase, state])]
    cases x.role
    · exact State.startRepair_of_busy fills'.circuit fills'.position busy
    · exact if_neg busy
  have := exec_fenceLane asks e (by rw [form]; exact clear)
  rwa [form] at this

/-- R104, R110, R112: an ACTIVE lane fenced in the UP phase at a position in NONE. -/
theorem fenceLane_active_upPhase (asks : s.Asks h .fenceLane tag [b]) (clear : s.Unmarked) (e : b.toNat = i.val)
    (fills : s.Fills i pl x p) (active : (s.lane i).state = .active) (state : x.state = .up ∨ x.state = .repairing)
    (idle : p.repair = .none) (few : p.attempts < 3) (held : p.dropped = false) (out : i ∉ s.pool)
    (nodup : s.pool.Nodup) (room : s.Room 1) :
    ∃ t y, exec (.fenceLane h) s = .next t ∧ (t.port h).link = .replied ⟨0x0A, tag, .ok, []⟩
      ∧ t.circuit pl.slot = some y ∧ y.state = .repairing ∧ t.boundTo i = s.boundTo i
      ∧ t.lane i = (s.lane i).declared .host
      ∧ (x.state = .up → (s.port x.near).link ≠ .absent →
          (t.port x.near).notices = queueNotice (s.port x.near).notices (.circuitRepairing pl.slot))
      ∧ (x.role = .answer → y.positions = x.positions
          ∧ t.placed = s.placed ++ [.laneFail x.tag (byteOf pl.position) .host])
      ∧ (x.role = .origin → s.Picked t pl.slot pl.position x p s.pool []) := by
  have fills' := fills.declared .host 0
  have own := (State.lane_declared active .host 0 i).trans (if_pos rfl)
  have bound := fills.boundTo (.inl active)
  have form : s.fenceByHost i = match x.role with
      | .origin => (s.declared i .host 0).startRepair pl.slot pl.position
      | .answer => ((s.declared i .host 0).send (.laneFail x.tag (byteOf pl.position) .host)).markRepairing pl.slot := by
    rw [State.fenceByHost_active active, fills.declareFailing, fills'.laneFailed,
      if_neg (by rcases state with k | k <;> simp [k]), if_pos (by rcases state with k | k <;> simp [Circuit.upPhase, k])]
    cases x.role
    · rfl
    · exact if_pos idle
  have repairing : x.repairing.state = .repairing := by rcases state with k | k <;> simp [Circuit.repairing, k]
  have pool : (s.declared i .host 0).pool = s.pool := by rw [State.pool_declared, List.filter_ne_self out]
  have scratch : (s.declared i .host 0).scratch = {} := clear
  have room' : (s.declared i .host 0).Room 1 := room
  have placed : (s.declared i .host 0).placed = s.placed := rfl
  have params : (s.declared i .host 0).params = s.params := rfl
  have ports : ∀ g, (s.declared i .host 0).port g = s.port g := fun _ => rfl
  generalize s.declared i .host 0 = d at *
  cases role : x.role with
  | answer =>
    rw [role] at form
    dsimp only at form
    have sent : (d.send (.laneFail x.tag (byteOf pl.position) .host)).circuit pl.slot = some x := by
      simpa using fills'.circuit
    have marks : (d.send (.laneFail x.tag (byteOf pl.position) .host)).scratch = {} :=
      (State.send_scratch _ _ room'.lt).trans scratch
    have circuit := State.circuit_markRepairing sent
    have calm : (s.fenceByHost i).Unmarked := by rw [form]; simpa [State.Unmarked] using marks
    refine ⟨_, x.repairing, exec_fenceLane asks e calm, by simp [ReqKind.code], ?_⟩
    rw [form]
    have fills'' : (((d.send (.laneFail x.tag (byteOf pl.position) .host)).markRepairing pl.slot)).Fills i pl
        x.repairing p := ⟨by simpa using fills'.place, circuit, fills.position⟩
    have bound' := fills''.boundTo (.inr (by simp [own, Lane.declared]))
    simp only [State.answered_rest, State.notices_answered, circuit, bound', bound, State.markRepairing_rest,
      State.send_lane, own]
    refine ⟨trivial, repairing, rfl, trivial, fun up present => ?_, fun _ => ⟨rfl, ?_⟩, fun no => nomatch no⟩
    · rw [State.notices_markRepairing sent up (by rw [State.port_send, ports]; exact present), State.port_send, ports]
    · rw [State.placed_send _ _ room'.1 (by rw [scratch]) room'.lt, placed]
  | origin =>
    rw [role] at form
    dsimp only at form
    rw [State.startRepair_of fills'.circuit fills'.position idle held] at form
    have circuit := State.circuit_markRepairing fills'.circuit
    have live : x.repairing.live = true := by simp [Circuit.live, repairing]
    have marked : d.NoticeAlone (d.markRepairing pl.slot) := State.markRepairing_rest d pl.slot
    obtain ⟨_, params', _, _, _, _, pool', _, _, _, scratch', placed', lane'⟩ := marked
    have room'' : (d.markRepairing pl.slot).Room 1 := by simpa [State.Room] using room'
    have frame := State.frame_pick circuit fills.position live few room''
    have picked := State.picked_pick circuit fills.position live few (by rw [pool', pool]; exact nodup)
      (by rw [scratch', scratch]) room''
    rw [pool', pool] at picked
    have notices := State.notices_markRepairing fills'.circuit
    obtain ⟨f, circuit', host⟩ := frame.circuit
    have own' := (frame.lane i (by rw [pool', pool]; exact out)).trans ((lane' i).trans own)
    have calm : (s.fenceByHost i).Unmarked := by
      rw [form]; exact frame.scratch.trans (scratch'.trans scratch)
    refine ⟨_, { x.repairing with positions := x.repairing.positions.modify pl.position f }, exec_fenceLane asks e calm,
      by simp [ReqKind.code], ?_⟩
    rw [form]
    have fills'' : ((d.markRepairing pl.slot).pick pl.slot pl.position).Fills i pl
        { x.repairing with positions := x.repairing.positions.modify pl.position f } (f p) :=
      ⟨(congrArg Lane.place own').trans fills.place, circuit', by
        change (x.positions.modify pl.position f)[pl.position]? = _
        simp [fills.position]⟩
    have bound' := fills''.boundTo (.inr (congrArg Lane.state own'))
    simp only [State.answered_rest, State.notices_answered, circuit', bound', bound, own', host]
    refine ⟨trivial, repairing, rfl, trivial, fun up present => ?_, (fun no => nomatch no), fun _ => ?_⟩
    · have present' : (d.port x.near).link ≠ .absent := by rw [ports]; exact present
      rw [State.port, frame.ports]
      exact (notices up present').trans (by rw [ports])
    · exact (picked.behind (x := x) (placed'.trans (placed.trans (List.append_nil _).symm)) (params'.trans params) rfl).seen
        (State.answered_rest _ _ _ _ _ _)

/-- R104, R113, R114: an ACTIVE current lane fenced in the setup phase leaves at once, and its position has lost it. -/
theorem fenceLane_active_setup (asks : s.Asks h .fenceLane tag [b]) (clear : s.Unmarked) (e : b.toNat = i.val)
    (fills : s.Fills i pl x p) (active : (s.lane i).state = .active) (state : x.state = .training)
    (idle : p.repair = .none) (few : p.attempts < 3) (out : i ∉ s.pool) (nodup : s.pool.Nodup) (room : s.Room 2) :
    ∃ t y, exec (.fenceLane h) s = .next t ∧ (t.port h).link = .replied ⟨0x0A, tag, .ok, []⟩
      ∧ t.circuit pl.slot = some y ∧ y.state = .training
      ∧ t.lane i = (((s.lane i).declared .host).fenceLocally s.params).clearPlace.enter .quarantined
      ∧ (x.role = .answer → y.positions[pl.position]? = some (p.without pl.role)
          ∧ t.placed = s.placed ++ [.fence b (.failure .host), .laneFail x.tag (byteOf pl.position) .host])
      ∧ (x.role = .origin →
          s.Picked t pl.slot pl.position x (p.without pl.role) s.pool [.fence b (.failure .host)]) := by
  have fills' := fills.declared .host 0
  have own := (State.lane_declared active .host 0 i).trans (if_pos rfl)
  have pool : (s.declared i .host 0).pool = s.pool := by rw [State.pool_declared, List.filter_ne_self out]
  have form : s.fenceByHost i = (((s.declared i .host 0).unname i).leaveAll [i] false .tail).positionLost
      pl.slot pl.position (some .host) := by
    rw [State.fenceByHost_active active, fills.declareFailing, fills'.laneFailed, if_pos state]
  have scratch : (s.declared i .host 0).scratch = {} := clear
  have room' : (s.declared i .host 0).Room 2 := room
  have placed : (s.declared i .host 0).placed = s.placed := rfl
  have params : (s.declared i .host 0).params = s.params := rfl
  generalize s.declared i .host 0 = d at *
  have left : (d.unname i).leaveAll [i] false .tail
      = ((d.unname i).setLocalFence i ((d.unname i).ownerTag i) (.failure .host)).quarantine i :=
    State.leaveAll_failed (by simp [own, Lane.declared]) false .tail
  rw [left] at form
  obtain ⟨marks, placed'⟩ := (d.unname i).setLocalFence_room i ((d.unname i).ownerTag i) (.failure .host)
    (by simp [scratch]) (by simpa using room'.lt)
  have room1 : ((d.unname i).setLocalFence i ((d.unname i).ownerTag i) (.failure .host)).Room 1 :=
    State.Room.setLocalFence (by simpa [State.Room] using room') i _ _
  have lane := fun j => (d.unname i).lane_setLocalFence i j ((d.unname i).ownerTag i) (.failure .host)
  obtain ⟨_, params', trunk', _, _, _, pool', _, _, _, circuit'⟩ :=
    (d.unname i).setLocalFence_rest i ((d.unname i).ownerTag i) (.failure .host)
  simp only [State.unname_rest, scratch, room'.1, if_true] at marks placed' params' pool' lane trunk'
  generalize (d.unname i).setLocalFence i ((d.unname i).ownerTag i) (.failure .host) = u at *
  have circuit : (u.quarantine i).circuit pl.slot = some (x.without pl) :=
    (circuit' pl.slot).trans fills'.circuit_unname
  have poolq : (u.quarantine i).pool = s.pool := by
    rw [State.pool_quarantine, pool', pool, List.filter_ne_self out]
  have ownq : (u.quarantine i).lane i
      = (((s.lane i).declared .host).fenceLocally s.params).clearPlace.enter .quarantined := by
    rw [State.lane_quarantine, if_pos rfl, lane, if_pos rfl, own, params]
  have placedq : (u.quarantine i).placed = s.placed ++ [.fence b (.failure .host)] := by
    rw [State.placed_quarantine, placed', placed, byteOf_of_toNat e]
    rfl
  have paramsq : (u.quarantine i).params = s.params := params'.trans params
  have roomq : (u.quarantine i).Room 1 := room1
  have scratchq : (u.quarantine i).scratch = {} := marks
  generalize u.quarantine i = v at *
  have position := Circuit.getElem?_without fills.position
  have state' : (x.without pl).state = .training := state
  cases role : x.role with
  | answer =>
    rw [State.positionLost_waits circuit position (.inl role)] at form
    rw [if_pos ⟨role, state, by simpa using idle⟩] at form
    have calm : (s.fenceByHost i).Unmarked := by
      rw [form]; exact (State.send_scratch _ _ roomq.lt).trans scratchq
    refine ⟨_, x.without pl, exec_fenceLane asks e calm,
      by simp [ReqKind.code], ?_⟩
    rw [form]
    simp only [State.answered_rest, State.send_circuit, circuit, State.send_lane]
    refine ⟨trivial, state', ownq, fun _ => ⟨position, ?_⟩, fun no => nomatch no⟩
    rw [State.placed_send _ _ roomq.1 (by rw [scratchq]) roomq.lt, placedq, List.append_assoc]
    rfl
  | origin =>
    have live : (x.without pl).live = true := by simp [Circuit.live, state']
    rw [State.positionLost_of circuit position] at form
    have role' : (x.without pl).role = .origin := role
    rw [role'] at form
    dsimp only at form
    rw [if_neg (by simp [state', idle])] at form
    have frame := State.frame_pick circuit position live (by simpa using few) roomq
    have picked := State.picked_pick circuit position live (by simpa using few) (by rw [poolq]; exact nodup)
      (by rw [scratchq]) roomq
    rw [poolq] at picked
    obtain ⟨f, circuit2, _⟩ := frame.circuit
    have calm : (s.fenceByHost i).Unmarked := by rw [form]; exact frame.scratch.trans scratchq
    refine ⟨_, { x.without pl with positions := (x.without pl).positions.modify pl.position f }, exec_fenceLane asks e calm,
      by simp [ReqKind.code], ?_⟩
    rw [form]
    simp only [State.answered_rest, circuit2]
    refine ⟨trivial, state', (frame.lane i (by rw [poolq]; exact out)).trans ownq, (fun no => nomatch no), fun _ => ?_⟩
    exact (picked.behind (x := x) placedq paramsq rfl).seen (State.answered_rest _ _ _ _ _ _)

end clauses

/-- Settles O33: each clause is the lane state's own. -/
theorem fenceLaneTaken : Obligations.FenceLaneTaken := by
  intro s h tag b asks clear
  constructor
  · intro big
    refine congrArg Host.Outcome.next ((State.takeRequest_of_asks asks _).trans ?_)
    exact State.takeLane1_bad asks _ big
  · rintro i e n rfl
    refine ⟨fun st unset room => ?_, fun st => ?_, fun st => ?_, ?_⟩
    · obtain ⟨t, run, link, own, pool, other, ring, placed⟩ := fenceLane_outside asks clear e st unset room
      obtain ⟨entry, logged, fields⟩ := s.logged_setLocalFence i none .host
      refine ⟨t, run, link, ?_, ?_, ?_, ?_, pool, other, ⟨entry, ring ▸ logged, fields⟩, placed⟩
      all_goals rw [own]; split <;> rfl
    · have same : s.fenceByHost i = s := by
        rcases st with ⟨k | k, set⟩ | k <;> simp [State.fenceByHost, *]
      have := exec_fenceLane asks e (by rw [same]; exact clear)
      rwa [same] at this
    · have form : s.fenceByHost i = s.modLane i fun l => { l with failure := some (l.failure.getD .host) } := by
        simp [State.fenceByHost, st]
      have := exec_fenceLane asks e (by rw [form]; exact clear)
      rwa [form] at this
    · intro pl x p left place circuit position hleft
      have fills : s.Fills i pl x p := ⟨place, circuit, position⟩
      rw [Position.eq_without hleft]
      obtain ⟨entry, logged, fields⟩ := s.logged_setLocalFence i (some x.tag) .host
      refine ⟨fun st out nodup room origin live few => ?_, fun st room waits => ?_, fun active state busy => ?_,
        fun active state idle few held out nodup room => ?_, fun active state current idle few out nodup room => ?_⟩
      · obtain ⟨t, run, link, own, ring, other, picks, waits⟩ :=
          fenceLane_held_origin asks clear e fills st out nodup room origin live few
        refine ⟨t, run, link, ?_, ?_, ?_, ?_, ?_, ?_, ⟨entry, ring ▸ logged, fields⟩, other, picks, waits⟩
        all_goals rw [own]; rfl
      · obtain ⟨t, run, link, own, ring, other, circuit', placed⟩ :=
          fenceLane_held_waits asks clear e fills st room waits
        refine ⟨t, x.without pl, run, link, ?_, ?_, ?_, ?_, ?_, ?_, ⟨entry, ring ▸ logged, fields⟩, other, circuit',
          Circuit.getElem?_without position, placed⟩
        all_goals rw [own]; rfl
      · refine ⟨_, fenceLane_active_inRepair asks clear e fills active state busy, by simp [ReqKind.code], ?_⟩
        simp only [State.answered_rest, State.declared_rest, State.lane_declared active, ite_true]
        exact ⟨rfl, fun j ne => if_neg ne, fun _ => trivial, trivial, fills.ring_declared .host 0⟩
      · exact fenceLane_active_upPhase asks clear e fills active state idle few held out nodup room
      · obtain ⟨t, y, run, link, circuit', state', own, answers, origins⟩ :=
          fenceLane_active_setup asks clear e fills active state idle few out nodup room
        have bound : t.boundTo i = none := State.boundTo_of_other (by rw [own]; simp [Lane.enter])
        exact ⟨t, y, run, link, circuit', state', bound, congrArg Lane.state own, congrArg Lane.localFence own,
          congrArg Lane.place own, congrArg Lane.failure own, congrArg Lane.failCount own, answers, origins⟩

end Sys2Proof.Machine
end

section
/-! SUPPORT. Sys2Proof/Proofs/TrunkUp: the trunk goes UP (R19, R129, R138, R140, R141). -/

namespace Sys2Proof.Machine

open Sys2Proof

/-! ### Lanes and pool rebuilt (R19) -/

theorem rebuiltLane_fences (enabled fenced : Bool) (l : Lane) :
    (rebuiltLane enabled fenced l).peerFence = fenced ∧ (rebuiltLane enabled fenced l).localFence = l.localFence := by
  unfold rebuiltLane
  dsimp only
  repeat' split
  all_goals exact ⟨rfl, rfl⟩

theorem rebuiltLane_state (enabled fenced : Bool) (l : Lane) : (rebuiltLane enabled fenced l).state =
    if enabled = true then if l.localFence = true ∨ fenced = true then .quarantined else .free else l.state := by
  cases enabled
  · rfl
  · by_cases h : l.localFence = true ∨ fenced = true
    · simp only [rebuiltLane, Bool.or_eq_true, h, if_true, Lane.enter]
    · simp only [rebuiltLane, Bool.or_eq_true, h, if_true, if_false, Lane.enter]

/-- R19: the rebuild visits each lane once, and the masks stand meanwhile. -/
theorem State.foldl_rebuilt (fences : Mask) (l : List LaneId) (nd : l.Nodup) (s : State) : ∃ ls q,
    l.foldl (fun s i =>
      (s.modLane i (rebuiltLane (s.enabledMask.getLsbD i.val) (fences.getLsbD i.val))).cancelDwell i) s
        = { s with lanes := ls, dwellQueue := q }
    ∧ ∀ j, ls.get j = if j ∈ l then rebuiltLane (s.enabledMask.getLsbD j.val) (fences.getLsbD j.val) (s.lane j)
        else s.lane j := by
  induction l generalizing s with
  | nil => exact ⟨s.lanes, s.dwellQueue, rfl, fun j => by simp [State.lane]⟩
  | cons a l ih =>
    obtain ⟨na, nd⟩ := List.nodup_cons.mp nd
    obtain ⟨ls, q, e, h⟩ := ih nd
      ((s.modLane a (rebuiltLane (s.enabledMask.getLsbD a.val) (fences.getLsbD a.val))).cancelDwell a)
    refine ⟨ls, q, e, fun j => ?_⟩
    have mask : ((s.modLane a (rebuiltLane (s.enabledMask.getLsbD a.val) (fences.getLsbD a.val))).cancelDwell
        a).enabledMask = s.enabledMask := rfl
    have lane : ((s.modLane a (rebuiltLane (s.enabledMask.getLsbD a.val) (fences.getLsbD a.val))).cancelDwell a).lane j
        = if j = a then rebuiltLane (s.enabledMask.getLsbD a.val) (fences.getLsbD a.val) (s.lane a) else s.lane j :=
      s.lane_modLane a j _
    rw [h j, mask, lane]
    by_cases e : j = a
    · subst e
      simp [na]
    · simp [e]

theorem State.rebuildLanes_eq (s : State) : ∃ ls q,
    s.rebuildLanes = { s with
      lanes := ls, dwellQueue := q, pool := (sideOrder s.side).filter fun i => (ls.get i).state == .free,
      scratch := { s.scratch with grown := true } }
    ∧ ∀ j, ls.get j = rebuiltLane (s.enabledMask.getLsbD j.val) ((s.peerFences.getD 0).getLsbD j.val) (s.lane j) := by
  obtain ⟨ls, q, e, h⟩ := State.foldl_rebuilt (s.peerFences.getD 0) (indexes 24) (indexes_nodup 24) s
  refine ⟨ls, q, ?_, fun j => by simpa using h j⟩
  unfold State.rebuildLanes
  dsimp only
  rw [e]
  rfl

/-! ### The trunk goes UP (R141) -/

theorem State.notifyAll_eq (s : State) (n : Notice) : ∃ ps, s.notifyAll n = { s with ports := ps } := by
  have all : ∀ (l : List PortId) (t : State), ∃ ps, l.foldl (fun s h => s.notify h n) t = { t with ports := ps } := by
    intro l
    induction l with
    | nil => exact fun t => ⟨_, rfl⟩
    | cons h l ih =>
      intro t
      obtain ⟨ps, e⟩ := t.notify_eq h n
      obtain ⟨qs, f⟩ := ih (t.notify h n)
      rw [e] at f
      exact ⟨qs, by rw [List.foldl_cons, e, f]⟩
  exact all _ s

/-- R141: everything that going UP changes, where no fence change is listed. -/
theorem State.goUp_eq {s : State} (h : s.fenceChanges = []) : ∃ ls q fr r n ps,
    s.goUp = { s.openSession with
      lanes := ls, dwellQueue := q, pool := (sideOrder s.side).filter fun i => (ls.get i).state == .free,
      txFrames := fr, sentSinceTick := true, ring := r, nextEntry := n, fenceChanges := [], ports := ps,
      scratch := { s.scratch with grown := true } }
    ∧ (∀ j, ls.get j = rebuiltLane (s.enabledMask.getLsbD j.val) ((s.peerFences.getD 0).getLsbD j.val) (s.lane j))
    ∧ ∀ g, ps.get g = if (s.port g).link ≠ .absent
        then { s.port g with notices := queueNotice (s.port g).notices .trunkUp } else s.port g := by
  let t := (s.openSession.sendJoin true true).log .trunkUp none none
    (BitVec.ofNat 16 (s.openSession.sendJoin true true).enabledCount)
  have changes : t.sendFenceChanges = { t with fenceChanges := [] } := by
    have none : ((indexes 24).filter fun i => decide (i ∈ t.fenceChanges)) = [] := by
      have : t.fenceChanges = [] := h
      simp [this]
    unfold State.sendFenceChanges
    dsimp only
    rw [none]
    rfl
  obtain ⟨ls, q, rebuilt, lanes⟩ := State.rebuildLanes_eq { t with fenceChanges := [] }
  obtain ⟨ps, told⟩ := State.notifyAll_eq (State.rebuildLanes { t with fenceChanges := [] }) .trunkUp
  have port := fun g => State.port_notifyAll (State.rebuildLanes { t with fenceChanges := [] }) g .trunkUp
  rw [rebuilt] at told
  simp only [rebuilt, told] at port
  refine ⟨ls, q, t.txFrames, t.ring, t.nextEntry, ps, ?_, lanes, port⟩
  unfold State.goUp
  dsimp only
  change (t.sendFenceChanges.rebuildLanes).notifyAll .trunkUp = _
  rw [changes, rebuilt, told]
  rfl

/-- Settles O37: the JOIN takes the trunk UP, and nobody waits for what the rebuilt pool offers. In the statement's text
the clause about the hosts' notices stands inside the condition by which the pool is listed; both are shown, each in full. -/
theorem trunkGoesUp : Obligations.TrunkGoesUp := by
  intro s q a j mask joining whole side ready joinMask changes nobody clear
  let u : State := State.received { s with peerHeard := true, peerEnable := some j.enable, peerFences := some j.fences }
  have taken : exec (.join q a j) s = .next u.goUp.finish := by
    have period : s.receiveJoin j = s.joinWhileJoining j := by
      simp only [State.receiveJoin, joining, whole, Bool.false_eq_true, if_false]
    refine congrArg Host.Outcome.next (period.trans ?_)
    unfold State.joinWhileJoining
    rw [if_neg side]
    exact if_pos (by simpa using ready)
  obtain ⟨ls, dq, fr, r, n, ps, up, lanes, ports⟩ := State.goUp_eq (s := u) changes
  have nobody' : u.goUp.NobodyWaits := by rw [up]; exact nobody
  have loss : u.goUp.scratch.overflow = false := by
    rw [up]; exact congrArg Scratch.overflow clear
  have grant : u.goUp.scratch.grant = false := by
    rw [up]; exact congrArg Scratch.grant clear
  rw [taken, nobody'.finish loss grant]
  have lane : ∀ i : LaneId, u.goUp.lane i = rebuiltLane (mask.getLsbD i.val && j.enable.getLsbD i.val)
      (j.fences.getLsbD i.val) (s.lane i) := by
    intro i
    have masks : u.enabledMask = mask &&& j.enable := by
      change s.joinMask.getD 0 &&& j.enable = _
      rw [joinMask]
      rfl
    rw [up]
    refine (lanes i).trans ?_
    rw [masks, BitVec.getLsbD_and]
    rfl
  have pool : u.goUp.unmark.pool = (sideOrder s.side).filter fun i => decide ((u.goUp.unmark.lane i).state = .free) := by
    rw [up]
    refine List.filter_congr fun i _ => ?_
    exact beq_eq_decide _ _
  have port : ∀ h, (s.port h).link ≠ .absent →
      (u.goUp.unmark.port h).notices = queueNotice (s.port h).notices .trunkUp := by
    intro h present
    rw [State.port_unmark, up]
    refine (congrArg Port.notices (ports h)).trans ?_
    rw [if_pos (by exact present)]
    rfl
  have session : u.goUp.unmark.trunk = .up ∧ u.goUp.unmark.sessions = s.sessions + 1 ∧ u.goUp.unmark.nextSeq = 0
      ∧ u.goUp.unmark.expectedSeq = 0 ∧ u.goUp.unmark.outstanding = [] ∧ u.goUp.unmark.sendQueue = []
      ∧ u.goUp.unmark.mark = false ∧ u.goUp.unmark.retryCount = 0 ∧ u.goUp.unmark.silenceCount = 0
      ∧ u.goUp.unmark.sentSinceTick = true := by
    rw [up]
    exact ⟨rfl, rfl, rfl, rfl, rfl, rfl, rfl, rfl, rfl, rfl⟩
  obtain ⟨trunk, sessions, next, expected, out, queue, mark, retry, silence, sent⟩ := session
  refine ⟨_, rfl, trunk, sessions, next, expected, out, queue, mark, retry, silence, sent, fun i => ?_, ?_⟩
  rotate_left
  · refine pool.trans (List.filter_congr fun i _ => ?_)
    rw [decide_eq_decide, decide_eq_true_eq]
    exact ⟨fun free => ⟨free, port⟩, And.left⟩
  simp only [State.unmark_rest, lane i]
  obtain ⟨peer, own⟩ := rebuiltLane_fences (mask.getLsbD i.val && j.enable.getLsbD i.val) (j.fences.getLsbD i.val) (s.lane i)
  exact ⟨peer, own, by rw [rebuiltLane_state]; simp only [Bool.and_eq_true]⟩

end Sys2Proof.Machine
end

section
/-! SUPPORT. Sys2Proof/Proofs/TrunkLoss: what a trunk loss leaves, block by block (R20, R48, R66, R78, R123, R144), and
the two ticks that lose the trunk (R134, R135). -/

namespace Sys2Proof.Machine

open Sys2Proof

/-! ### Lanes (R20) -/

/-- R20: a lane that fails or releases with a failure reason takes its local fence at the loss. -/
def Lane.fencedAtLoss (p : Params) (l : Lane) : Lane :=
  if (l.state = .failing ∨ l.state = .releasing) ∧ l.failure ≠ none then l.fenceLocally p else l

/-- R130, R142: at the loss no message goes out and no fence change is noted. -/
theorem State.setLocalFence_of_lost {s : State} (lost : s.trunk = .lost) (i : LaneId) (t : Option Tag) (w : FenceCause) :
    ∃ r n, s.setLocalFence i t w = { s.modLane i (Lane.fenceLocally s.params) with ring := r, nextEntry := n } := by
  obtain ⟨r, n, e⟩ := s.setLocalFence_eq i t w
  have noted : (s.modLane i (Lane.fenceLocally s.params)).noteFenceChange i = s.modLane i (Lane.fenceLocally s.params) := by
    simp [State.noteFenceChange, lost]
  rw [noted, State.send_of_not_up _ _ (by simp [lost])] at e
  exact ⟨r, n, e⟩

theorem State.fenceAtLoss_eq {s : State} (lost : s.trunk = .lost) (i : LaneId) : ∃ ls r n,
    s.fenceAtLoss i = { s with lanes := ls, ring := r, nextEntry := n }
    ∧ ∀ j, ls.get j = if j = i then (s.lane i).fencedAtLoss s.params else s.lane j := by
  unfold State.fenceAtLoss Lane.fencedAtLoss
  split
  · rename_i st
    split
    · rename_i w e
      obtain ⟨r, n, f⟩ := State.setLocalFence_of_lost lost i (s.ownerTag i) (.failure w)
      refine ⟨_, r, n, f, fun j => (s.lane_modLane i j _).trans ?_⟩
      simp [st, e]
    · rename_i e
      refine ⟨s.lanes, s.ring, s.nextEntry, rfl, fun j => ?_⟩
      simp only [e, ne_eq, not_true_eq_false, and_false, if_false]
      split
      · rename_i k; rw [k]; rfl
      · rfl
  · rename_i st
    refine ⟨s.lanes, s.ring, s.nextEntry, rfl, fun j => ?_⟩
    simp only [st, false_and, if_false]
    split
    · rename_i k; rw [k]; rfl
    · rfl

theorem State.foldl_fenceAtLoss (l : List LaneId) (nd : l.Nodup) (s : State) (lost : s.trunk = .lost) : ∃ ls r n,
    l.foldl State.fenceAtLoss s = { s with lanes := ls, ring := r, nextEntry := n }
    ∧ ∀ j, ls.get j = if j ∈ l then (s.lane j).fencedAtLoss s.params else s.lane j := by
  induction l generalizing s with
  | nil => exact ⟨s.lanes, s.ring, s.nextEntry, rfl, fun j => by simp [State.lane]⟩
  | cons a l ih =>
    obtain ⟨na, nd⟩ := List.nodup_cons.mp nd
    obtain ⟨ls, r, n, e, first⟩ := State.fenceAtLoss_eq lost a
    obtain ⟨ks, r', n', f, later⟩ := ih nd (s.fenceAtLoss a) (by rw [e]; exact lost)
    rw [e] at f later
    refine ⟨ks, r', n', by rw [List.foldl_cons, e]; exact f, fun j => (later j).trans ?_⟩
    have lane : State.lane { s with lanes := ls, ring := r, nextEntry := n } j
        = if j = a then (s.lane a).fencedAtLoss s.params else s.lane j := first j
    rw [lane]
    by_cases k : j = a
    · subst k
      simp [na]
    · simp [k]

theorem State.lanesAtLoss_eq {s : State} (lost : s.trunk = .lost) : ∃ ls r n,
    s.lanesAtLoss = { s with lanes := ls, pool := [], dwellQueue := [], ring := r, nextEntry := n }
    ∧ ∀ j, ls.get j = ((s.lane j).fencedAtLoss s.params).atLoss := by
  obtain ⟨ls, r, n, e, h⟩ := State.foldl_fenceAtLoss (indexes 24) (indexes_nodup 24) s lost
  refine ⟨ls.map Lane.atLoss, r, n, ?_, fun j => ?_⟩
  · unfold State.lanesAtLoss
    dsimp only
    rw [e]
  · rw [Table.get_map, h j, if_pos (mem_indexes j)]

/-! ### Circuits (R48) -/

/-- R23, R48: a slot after the loss: VACANT, its generation advanced where it held a circuit. -/
def Slot.afterLoss (sl : Slot) : Slot := ⟨if sl.circuit.isSome then sl.gen + 1 else sl.gen, none⟩

theorem State.notifyOpt_eq (s : State) (h : PortId) (n : Option Notice) :
    ∃ ps, s.notifyOpt h n = { s with ports := ps } := by
  unfold State.notifyOpt
  split
  · exact ⟨s.ports, rfl⟩
  · exact s.notify_eq _ _

theorem State.circuitAtLoss_eq (s : State) (c : SlotId) : ∃ sl sk ps sc,
    s.circuitAtLoss c = { s with slots := sl, seeking := sk, ports := ps, scratch := sc }
    ∧ ∀ d, sl.get d = if d = c then (s.slots.get c).afterLoss else s.slots.get d := by
  unfold State.circuitAtLoss
  split
  · rename_i vacant
    refine ⟨s.slots, s.seeking, s.ports, s.scratch, rfl, fun d => ?_⟩
    split
    · rename_i e
      subst e
      have vacant : (s.slots.get d).circuit = none := vacant
      simp only [Slot.afterLoss, vacant, Option.isSome_none, Bool.false_eq_true, if_false]
      exact congrArg (Slot.mk _) vacant
    · rfl
  · rename_i x held
    have held : (s.slots.get c).circuit = some x := held
    obtain ⟨ps, e⟩ := s.notifyOpt_eq x.near (lossNotice c x)
    rw [e]
    refine ⟨_, _, ps, _, rfl, fun d => (State.slots_vacate _ c d).trans ?_⟩
    simp [Slot.afterLoss, held]

theorem State.foldl_circuitAtLoss (l : List SlotId) (nd : l.Nodup) (s : State) : ∃ sl sk ps sc,
    l.foldl State.circuitAtLoss s = { s with slots := sl, seeking := sk, ports := ps, scratch := sc }
    ∧ ∀ d, sl.get d = if d ∈ l then (s.slots.get d).afterLoss else s.slots.get d := by
  induction l generalizing s with
  | nil => exact ⟨s.slots, s.seeking, s.ports, s.scratch, rfl, fun d => by simp⟩
  | cons a l ih =>
    obtain ⟨na, nd⟩ := List.nodup_cons.mp nd
    obtain ⟨sl, sk, ps, sc, e, first⟩ := s.circuitAtLoss_eq a
    obtain ⟨sl', sk', ps', sc', f, later⟩ := ih nd (s.circuitAtLoss a)
    rw [e] at f later
    refine ⟨sl', sk', ps', sc', by rw [List.foldl_cons, e]; exact f, fun d => (later d).trans ?_⟩
    dsimp only
    rw [first d]
    by_cases k : d = a
    · subst k
      simp [na]
    · simp [k]

/-! ### The setup queue (R66) -/

/-- R65, R66: an entry that has lost its circuit waits afterwards, or is gone; the others stay. -/
theorem State.returnEntry_eq (s : State) (e : Entry) : ∃ q ps sc,
    s.returnEntry e = { s with queue := q, ports := ps, scratch := sc }
    ∧ ∀ x ∈ q, x.slot = none ∨ x ∈ s.queue ∧ ¬(x.port = e.port ∧ x.tag = e.tag) := by
  unfold State.returnEntry
  dsimp only
  split
  · refine ⟨_, _, _, rfl, fun x m => ?_⟩
    obtain ⟨o, mem, rfl⟩ := List.mem_map.mp m
    split
    · exact .inl rfl
    · rename_i other
      exact .inr ⟨mem, other⟩
  · have dropped : ∃ q sc, (s.dropEntries fun o => o.port = e.port ∧ o.tag = e.tag) = { s with queue := q, scratch := sc }
        ∧ ∀ x ∈ q, x ∈ s.queue ∧ ¬(x.port = e.port ∧ x.tag = e.tag) := by
      unfold State.dropEntries
      split
      · refine ⟨_, _, rfl, fun x m => ?_⟩
        obtain ⟨mem, stays⟩ := List.mem_filter.mp m
        exact ⟨mem, of_decide_eq_true (by simpa using stays)⟩
      · rename_i none
        refine ⟨s.queue, s.scratch, rfl, fun x m => ⟨m, fun same => none ?_⟩⟩
        exact List.any_eq_true.mpr ⟨x, m, decide_eq_true same⟩
    obtain ⟨q, sc, f, rest⟩ := dropped
    obtain ⟨ps, g⟩ := State.notify_eq { s with queue := q, scratch := sc } e.port (.openFailed e.tag .hostLanesShort)
    rw [f, g]
    exact ⟨q, ps, sc, rfl, fun x m => .inr (rest x m)⟩

/-- R66: when every PROPOSED entry has been returned, none is left. -/
theorem State.foldl_returnEntry (l : List Entry) (s : State)
    (h : ∀ x ∈ s.queue, x.slot ≠ none → ∃ e ∈ l, x.port = e.port ∧ x.tag = e.tag) : ∃ q ps sc,
    l.foldl State.returnEntry s = { s with queue := q, ports := ps, scratch := sc } ∧ ∀ x ∈ q, x.slot = none := by
  induction l generalizing s with
  | nil =>
    refine ⟨s.queue, s.ports, s.scratch, rfl, fun x m => Classical.byContradiction fun proposed => ?_⟩
    obtain ⟨_, none, _⟩ := h x m proposed
    cases none
  | cons e l ih =>
    obtain ⟨q, ps, sc, f, rest⟩ := s.returnEntry_eq e
    obtain ⟨q', ps', sc', g, done⟩ := ih { s with queue := q, ports := ps, scratch := sc } fun x m proposed => by
      obtain ⟨mem, other⟩ := (rest x m).resolve_left proposed
      obtain ⟨o, ho, same⟩ := h x mem proposed
      rcases List.mem_cons.mp ho with rfl | ho
      · exact absurd same other
      · exact ⟨o, ho, same⟩
    exact ⟨q', ps', sc', by rw [List.foldl_cons, f]; exact g, done⟩

theorem State.queueAtLoss_eq (s : State) : ∃ q ps sc,
    s.queueAtLoss = { s with queue := q, ports := ps, scratch := sc } ∧ ∀ x ∈ q, x.slot = none := by
  refine State.foldl_returnEntry _ s fun x m proposed => ⟨x, List.mem_filter.mpr ⟨m, ?_⟩, rfl, rfl⟩
  exact Option.isSome_iff_ne_none.mpr proposed

/-! ### The loss (R144) -/

/-- R144: everything that a trunk loss leaves. -/
theorem State.goLost_eq (s : State) (r : LossReason) : ∃ ls q sl ps sc ring n,
    s.goLost r = { s.closeSession r with
      lanes := ls, pool := [], dwellQueue := [], queue := q, slots := sl, seeking := [], ports := ps, scratch := sc,
      ring := ring, nextEntry := n }
    ∧ (∀ j, ls.get j = ((s.lane j).fencedAtLoss s.params).atLoss)
    ∧ (∀ d, sl.get d = (s.slots.get d).afterLoss) ∧ ∀ e ∈ q, e.slot = none := by
  let t := (s.closeSession r).log .trunkLost none none (BitVec.zeroExtend 16 r.code)
  obtain ⟨ps, told⟩ := t.notifyAll_eq (.trunkLost r)
  obtain ⟨ls, ring, n, out, lanes⟩ := State.lanesAtLoss_eq (s := { t with ports := ps }) rfl
  obtain ⟨sl, sk, ps', sc, vacated, slots⟩ := State.foldl_circuitAtLoss (indexes 16) (indexes_nodup 16)
    { t with ports := ps, lanes := ls, pool := [], dwellQueue := [], ring := ring, nextEntry := n }
  obtain ⟨q, ps'', sc', returned, wait⟩ := State.queueAtLoss_eq
    { t with
      ports := ps', lanes := ls, pool := [], dwellQueue := [], ring := ring, nextEntry := n, slots := sl,
      seeking := sk, scratch := sc }
  refine ⟨ls, q, sl, ps'', sc', ring, n, ?_, lanes, fun d => (slots d).trans (if_pos (mem_indexes d)), wait⟩
  change { ((indexes 16).foldl State.circuitAtLoss (t.notifyAll (.trunkLost r)).lanesAtLoss).queueAtLoss with
    seeking := [] } = _
  rw [told, out, vacated, returned]
  rfl

/-- R59: no entry is admissible while the trunk is not UP, so that a scan serves none. -/
theorem State.scan_of_not_up (s : State) (h : s.trunk ≠ .up) : s.scan = s := by
  have turn : ∀ k n, State.scanTurn k s n = s := by
    intro k n
    unfold State.scanTurn
    split
    · rename_i e c _ _
      have no : s.admissible e = false := by simp [State.admissible, h]
      rw [if_neg (by simp [no])]
    · rfl
  have pass : ∀ k (l : List Nat), l.foldl (State.scanTurn k) s = s := by
    intro k l
    induction l with
    | nil => rfl
    | cons n l ih => rw [List.foldl_cons, turn, ih]
  unfold State.scan
  dsimp only
  rw [pass, pass]

/-- R115: growth of the pool serves nothing where nothing is sought. -/
theorem State.reportGrowth_eq {s : State} (seeking : s.seeking = []) : ∃ k : Scratch,
    s.reportGrowth = { s with scratch := k } ∧ k.overflow = s.scratch.overflow := by
  unfold State.reportGrowth
  split
  · rw [seeking]
    exact ⟨_, rfl, rfl⟩
  · exact ⟨s.scratch, rfl, rfl⟩

/-- The end of an event in which the trunk was lost: nothing is left to serve, to grant or to lose. -/
theorem State.finish_of_lost (s : State) (lost : s.trunk = .lost) (seeking : s.seeking = []) (dwells : s.dwellQueue = []) :
    s.finish = s.unmark := by
  have notUp : ∀ k : Scratch, ({ s with scratch := k } : State).trunk ≠ .up := fun _ e => by rw [lost] at e; cases e
  obtain ⟨k, e, -⟩ := State.reportGrowth_eq seeking
  have scan := State.scan_of_not_up _ (notUp k)
  have grant := State.grant_of_empty { s with scratch := k } dwells
  have kept : State.overflowLoss { s with scratch := k } = { s with scratch := k } := if_neg fun h => notUp k h.2
  unfold State.finish
  rw [e]
  dsimp only
  rw [scan, ite_self, grant, ite_self, kept]
  rfl

theorem Lane.fencedAtLoss_keeps (p : Params) (l : Lane) :
    (l.fencedAtLoss p).state = l.state ∧ (l.fencedAtLoss p).run = l.run ∧ (l.fencedAtLoss p).lastGood = l.lastGood
      ∧ (l.fencedAtLoss p).missed = l.missed
      ∧ ((l.fencedAtLoss p).localFence = true ↔ l.localFence = true
        ∨ l.failure ≠ none ∧ (l.state = .failing ∨ l.state = .releasing)) := by
  unfold Lane.fencedAtLoss
  split
  · rename_i h
    exact ⟨rfl, rfl, rfl, rfl, by simp [Lane.fenceLocally, h.1, h.2]⟩
  · rename_i h
    exact ⟨rfl, rfl, rfl, rfl, ⟨.inl, fun k => k.resolve_right fun m => h ⟨m.2, m.1⟩⟩⟩

/-- R20: a lane after the loss is OFFLINE and cleared; its history and its local fence stay. -/
theorem Lane.atLoss_spec (l : Lane) :
    l.atLoss.state = .offline ∧ l.atLoss.place = none ∧ l.atLoss.training = none ∧ l.atLoss.preset = none
      ∧ l.atLoss.fom = none ∧ l.atLoss.failure = none ∧ l.atLoss.strikes = 0 ∧ l.atLoss.peerTrained = false
      ∧ l.atLoss.peerFence = false ∧ l.atLoss.lastGood = l.lastGood ∧ l.atLoss.missed = l.missed
      ∧ l.atLoss.run = (if l.state = .offline then l.run else l.run + 1) ∧ l.atLoss.localFence = l.localFence := by
  unfold Lane.atLoss
  dsimp only
  split
  · rename_i e
    exact ⟨e, rfl, rfl, rfl, rfl, rfl, rfl, rfl, rfl, rfl, rfl, rfl, rfl⟩
  · exact ⟨rfl, rfl, rfl, rfl, rfl, rfl, rfl, rfl, rfl, rfl, rfl, rfl, rfl⟩

/-! ### The ticks (R134, R135) -/

/-- R134, R135: the tick of either limit loses the trunk, from a state that differs in the channel's counts alone. -/
theorem State.controlTicked_lost {s : State} {c : Instr} {r : LossReason} (up : s.trunk = .up)
    (h : c = .peerSilent ∧ r = .peerSilent ∧ s.params.silenceLimit ≤ s.silenceCount + 1
      ∨ c = .tccRetry ∧ r = .tccRetry ∧ s.silenceCount + 1 < s.params.silenceLimit ∧ s.outstanding ≠ []
          ∧ s.mark = true ∧ s.params.retryLimit < s.retryCount + 1) :
    ∃ n, s.controlTicked = (State.goLost { s with
      controlTimer := .running s.params.controlTick, silenceCount := s.silenceCount + 1, retryCount := n } r).finish := by
  unfold State.controlTicked
  simp only [up]
  unfold State.upTick
  dsimp only
  rcases h with ⟨_, rfl, silent⟩ | ⟨_, rfl, heard, out, marked, passed⟩
  · exact ⟨s.retryCount, by rw [if_pos silent]⟩
  · refine ⟨s.retryCount + 1, ?_⟩
    unfold State.retryTick
    dsimp only
    rw [if_neg (Nat.not_le.mpr heard), if_neg out, if_neg (by simp [marked]), if_pos passed]

/-- Settles O42: the tick is the loss, and the loss leaves nothing for the event's end. -/
theorem trunkLossClearsAll : Obligations.TrunkLossClearsAll := by
  intro s ms c r timer up h
  have named : exec c s = .next s.controlTicked ∧ exec .controlTick s = .next s.controlTicked := by
    have runs : s.controlTimer.runs = true := by rw [timer]; rfl
    refine ⟨?_, congrArg Host.Outcome.next (if_pos ⟨runs, rfl⟩)⟩
    rcases h with ⟨rfl, _, silent⟩ | ⟨rfl, _, heard, out, marked, passed⟩
    · exact congrArg Host.Outcome.next (if_pos ⟨runs, by simp [State.silentNext, up, silent]⟩)
    · refine congrArg Host.Outcome.next (if_pos ⟨runs, ?_⟩)
      simp [State.retryNext, State.resendNext, State.silentNext, up, heard, out, marked, passed]
  obtain ⟨named, ticked⟩ := named
  obtain ⟨n, lost⟩ := State.controlTicked_lost up h
  obtain ⟨ls, q, sl, ps, sc, ring, ne, e, lanes, slots, wait⟩ := State.goLost_eq { s with
    controlTimer := .running s.params.controlTick, silenceCount := s.silenceCount + 1, retryCount := n } r
  rw [State.finish_of_lost _ (by rw [e]; rfl) (by rw [e]) (by rw [e]), e] at lost
  refine ⟨_, named.trans (by rw [lost]), ticked.trans (by rw [lost]), rfl, rfl, rfl, rfl, rfl, rfl, rfl, rfl, rfl, rfl, rfl,
    rfl, wait, slots, fun i => ?_⟩
  obtain ⟨state, run, good, missed, fence⟩ := Lane.fencedAtLoss_keeps s.params (s.lane i)
  obtain ⟨h1, h2, h3, h4, h5, h6, h7, h8, h9, h10, h11, h12, h13⟩ :=
    Lane.atLoss_spec ((s.lane i).fencedAtLoss s.params)
  have lane : ls.get i = ((s.lane i).fencedAtLoss s.params).atLoss := lanes i
  change (ls.get i).state = _ ∧ (ls.get i).place = _ ∧ (ls.get i).training = _ ∧ (ls.get i).preset = _
    ∧ (ls.get i).fom = _ ∧ (ls.get i).failure = _ ∧ (ls.get i).strikes = _ ∧ (ls.get i).peerTrained = _
    ∧ (ls.get i).peerFence = _ ∧ (ls.get i).lastGood = _ ∧ (ls.get i).missed = _ ∧ (ls.get i).run = _
    ∧ ((ls.get i).localFence = true ↔ _)
  rw [lane]
  exact ⟨h1, h2, h3, h4, h5, h6, h7, h8, h9, h10.trans good, h11.trans missed, by rw [h12, state, run], by rw [h13, fence]⟩

end Sys2Proof.Machine
end

section
/-! SUPPORT. Sys2Proof/Proofs/Activate.lean: a lane enters ACTIVE (R10): a current lane joins the UP decision (R39), a
replacement causes a switchover (R119). -/

namespace Sys2Proof.Machine

open Sys2Proof

/-! ### Positions changed one at a time -/

theorem List.map_modify_of_eq {α β : Type} {f : α → α} {g : α → β} (h : ∀ a, g (f a) = g a) (l : List α) (n : Nat) :
    (l.modify n f).map g = l.map g := by
  refine List.ext_getElem? fun m => ?_
  rw [List.getElem?_map, List.getElem?_map, List.getElem?_modify]
  by_cases e : n = m
  · cases l[m]? <;> simp [e, h]
  · simp [e]

/-- R25: the width counts what the positions say of being dropped, and no more. -/
theorem Circuit.width_eq_count (x : Circuit) : x.width = (x.positions.map (·.dropped)).count false := by
  rw [Circuit.width, ← List.countP_eq_length_filter, List.count, List.countP_map]
  refine List.countP_congr fun q _ => ?_
  simp

@[simp] theorem Position.setupRepairDone_rest (q : Position) :
    q.setupRepairDone.hostLane = q.hostLane ∧ q.setupRepairDone.current = q.current := by
  unfold Position.setupRepairDone
  split <;> exact ⟨rfl, rfl⟩

@[simp] theorem Position.dropped_setupRepairDone (q : Position) : q.setupRepairDone.dropped = q.dropped := by
  unfold Position.setupRepairDone
  split <;> rfl

@[simp] theorem Position.lanes_setupRepairDone (q : Position) : q.setupRepairDone.lanes = q.lanes := by
  unfold Position.setupRepairDone
  split <;> rfl

theorem Position.repair_setupRepairDone {q : Position} (h : q.repair = .none ∨ q.repair = .replacing) :
    q.setupRepairDone.repair = .none := by
  rcases h with e | e <;> simp [Position.setupRepairDone, e, Position.endRepair]

/-- R119: a circuit, in the setup phase, at a position whose lane has entered ACTIVE. -/
def Circuit.entering (x : Circuit) (n : Nat) : Circuit :=
  { x with positions := x.positions.modify n Position.setupRepairDone }

@[simp] theorem Circuit.lanes_entering (x : Circuit) (n : Nat) : (x.entering n).lanes = x.lanes := by
  rw [Circuit.lanes, Circuit.lanes, List.flatMap_def, List.flatMap_def]
  exact congrArg List.flatten (List.map_modify_of_eq Position.lanes_setupRepairDone x.positions n)

theorem Circuit.width_entering (x : Circuit) (n : Nat) : (x.entering n).width = x.width := by
  rw [Circuit.width_eq_count, Circuit.width_eq_count]
  exact congrArg (List.count false) (List.map_modify_of_eq Position.dropped_setupRepairDone x.positions n)

theorem Circuit.getElem?_entering {x : Circuit} {n : Nat} {p : Position} (h : x.positions[n]? = some p) :
    (x.entering n).positions[n]? = some p.setupRepairDone := by
  simp [Circuit.entering, h]

/-! ### The UP decision (R39) -/

/-- R39: a circuit that has become UP. -/
def Circuit.begunUp (x : Circuit) : Circuit := { x with state := .up, everUp := true }

theorem State.upDecision_of {s : State} {c : SlotId} {x : Circuit} (h : s.circuit c = some x) :
    s.upDecision c = if x.state = .training ∧ s.allActive x = true then
      (s.setCircuit c x.begunUp).notify x.near (.circuitUp c x.role x.reqTag x.width) else s := by
  rw [State.upDecision, h]
  rfl

theorem State.notices_setCircuit_notify (s : State) (c : SlotId) (x : Circuit) {h : PortId} (n : Notice)
    (present : (s.port h).link ≠ .absent) :
    (((s.setCircuit c x).notify h n).port h).notices = queueNotice (s.port h).notices n := by
  rw [State.port_notify, if_pos ⟨rfl, present⟩]
  rfl

/-- R39: with its own lane ACTIVE and its repair done, a position leaves the decision to the others. -/
theorem State.allActive_entering {s : State} {x : Circuit} {n : Nat} {p : Position} {i : LaneId}
    (position : x.positions[n]? = some p) (current : p.current = some i) (active : (s.lane i).state = .active)
    (repair : p.repair = .none ∨ p.repair = .replacing) :
    s.allActive (x.entering n) = true ↔ s.OthersActive x n := by
  unfold State.allActive
  rw [List.all_eq_true]
  constructor
  · intro all m q ne hq held
    have here : (x.entering n).positions[m]? = some q := by
      simp [Circuit.entering, hq, Ne.symm ne]
    have := all q (List.mem_of_getElem? here)
    simp only [held, Bool.false_or, Bool.and_eq_true, beq_iff_eq, Option.any_eq_true] at this
    obtain ⟨none, j, hj, st⟩ := this
    exact ⟨none, j, hj, st⟩
  · intro others q mem
    obtain ⟨m, hm⟩ := List.mem_iff_getElem?.mp mem
    by_cases e : m = n
    · subst e
      obtain rfl := Option.some.inj (hm.symm.trans (Circuit.getElem?_entering position))
      simp [Position.repair_setupRepairDone repair, current, active]
    · have hq : x.positions[m]? = some q := by
        simpa [Circuit.entering, List.getElem?_modify, Ne.symm e] using hm
      cases held : q.dropped
      · obtain ⟨none, j, hj, st⟩ := others m q e hq held
        simp [none, hj, st]
      · rfl

/-- What `t` is where, from `s`, the lane `i` of the position `n` of the circuit `x` has entered ACTIVE as its current lane
in the setup phase: `y` is the circuit then. -/
structure State.JoinsUp (s t : State) (i : LaneId) (c : SlotId) (n : Nat) (x y : Circuit) (p : Position) : Prop where
  lane : ∀ j, t.lane j = if j = i then (s.lane i).enter .active else s.lane j
  marks : t.scratch = s.scratch
  placed : t.placed = s.placed
  circuit : t.circuit c = some y
  lanes : y.lanes = x.lanes
  near : y.near = x.near
  position : y.positions[n]? = some p.setupRepairDone
  up : s.OthersActive x n → y.state = .up ∧ y.everUp = true ∧ ((s.port x.near).link ≠ .absent →
    (t.port x.near).notices = queueNotice (s.port x.near).notices (.circuitUp c x.role x.reqTag x.width))
  waits : (∃ m o, m ≠ n ∧ x.positions[m]? = some o ∧ o.dropped = false
    ∧ ∀ j, o.current = some j → j ≠ i ∧ (s.lane j).state ≠ .active) → y.state = .training ∧ t.ports = s.ports

theorem State.Fills.moveLane {s : State} {i : LaneId} {pl : Place} {x : Circuit} {p : Position} (h : s.Fills i pl x p)
    (st : LaneState) : (s.moveLane i st).Fills i pl x p :=
  h.congr (by rw [State.lane_moveLane, if_pos rfl]; rfl) rfl

theorem State.Fills.activate_current {s : State} {i : LaneId} {c : SlotId} {n : Nat} {x : Circuit} {p : Position}
    (h : s.Fills i ⟨c, .current, n⟩ x p) :
    s.activate i = ((s.moveLane i .active).modPosition c n Position.setupRepairDone).upDecision c := by
  unfold State.activate
  dsimp only
  rw [(h.moveLane .active).place]

/-- R10, R39: a current lane enters ACTIVE in the setup phase. -/
theorem State.Fills.joinsUp {s : State} {i : LaneId} {c : SlotId} {n : Nat} {x : Circuit} {p : Position}
    (h : s.Fills i ⟨c, .current, n⟩ x p) (setup : x.state = .training) (current : p.current = some i)
    (repair : p.repair = .none ∨ p.repair = .replacing) : ∃ y, s.JoinsUp (s.activate i) i c n x y p := by
  rw [h.activate_current]
  have lane (j) : ((s.moveLane i .active).modPosition c n Position.setupRepairDone).lane j
      = if j = i then (s.lane i).enter .active else s.lane j := by
    rw [← s.lane_moveLane i j .active]
    exact State.lane_modPosition _ c n _ j
  have circuit : ((s.moveLane i .active).modPosition c n Position.setupRepairDone).circuit c = some (x.entering n) := by
    rw [State.circuit_modPosition, if_pos rfl, (h.moveLane .active).circuit]
    rfl
  have marks : ((s.moveLane i .active).modPosition c n Position.setupRepairDone).scratch = s.scratch := by simp
  have placed : ((s.moveLane i .active).modPosition c n Position.setupRepairDone).placed = s.placed := by
    simp [State.placed]
  have ports : ((s.moveLane i .active).modPosition c n Position.setupRepairDone).ports = s.ports := by simp
  generalize (s.moveLane i .active).modPosition c n Position.setupRepairDone = u at *
  have own : (u.lane i).state = .active := by rw [lane, if_pos rfl]; rfl
  have still (j) (st : (s.lane j).state = .active) : (u.lane j).state = .active := by
    rw [lane]; split
    · rfl
    · exact st
  have decision := State.allActive_entering h.position current own repair
  have position := Circuit.getElem?_entering h.position
  rw [State.upDecision_of circuit]
  by_cases others : u.OthersActive x n
  · rw [if_pos ⟨setup, decision.mpr others⟩]
    refine ⟨(x.entering n).begunUp, ?_⟩
    have rest := u.noticeAlone_setCircuit_notify c (x.entering n).begunUp (x.entering n).near
      (.circuitUp c (x.entering n).role (x.entering n).reqTag (x.entering n).width)
    obtain ⟨-, -, -, -, -, -, -, -, -, -, scratch, place, lanes⟩ := rest
    have port : u.port x.near = s.port x.near := by rw [State.port, ports]; rfl
    refine ⟨fun j => (lanes j).trans (lane j), scratch.trans marks, place.trans placed, by simp, ?_, rfl, position, ?_, ?_⟩
    · exact x.lanes_entering n
    · refine fun _ => ⟨rfl, rfl, fun present => ?_⟩
      rw [← port] at present ⊢
      have told := u.notices_setCircuit_notify c (x.entering n).begunUp
        (.circuitUp c (x.entering n).role (x.entering n).reqTag (x.entering n).width) present
      rw [x.width_entering n] at told ⊢
      exact told
    · rintro ⟨m, o, ne, hm, held, not⟩
      obtain ⟨-, j, hj, st⟩ := others m o ne hm held
      obtain ⟨other, idle⟩ := not j hj
      rw [lane, if_neg other] at st
      exact absurd st idle
  · rw [if_neg fun all => others (decision.mp all.2)]
    refine ⟨x.entering n, lane, marks, placed, circuit, by simp, rfl, position, fun all => ?_, fun _ => ⟨setup, ports⟩⟩
    refine absurd (fun m q ne hq held => ?_) others
    obtain ⟨none, j, hj, st⟩ := all m q ne hq held
    exact ⟨none, j, hj, still j st⟩

/-- R10: the lane is bound to its position's host lane. -/
theorem State.JoinsUp.boundTo {s t : State} {i : LaneId} {c : SlotId} {n : Nat} {x y : Circuit} {p : Position}
    (h : s.JoinsUp t i c n x y p) (place : (s.lane i).place = some ⟨c, .current, n⟩) :
    t.boundTo i = some (x.near, p.hostLane) := by
  have own : t.lane i = (s.lane i).enter .active := by rw [h.lane, if_pos rfl]
  have fills : t.Fills i ⟨c, .current, n⟩ y p.setupRepairDone := ⟨by rw [own]; exact place, h.circuit, h.position⟩
  rw [fills.boundTo (.inl (by rw [own]; rfl)), h.near]
  simp

/-! ### Switchover (R119) -/

/-- R15: a lane without a failure reason that leaves where its peer's fence is presumed is QUARANTINED. -/
theorem State.leaveAll_presumed {s : State} {i : LaneId} (h : (s.lane i).failure = none) (e : PoolEnd) :
    s.leaveAll [i] true e = (s.setPeerFence i).quarantine i := by
  have left : State.leaveFenced true s i = (s.setPeerFence i).quarantine i := by
    simp [State.leaveFenced, h, State.lane_setPeerFence]
  have gone : ([i].filter fun j => ((((s.setPeerFence i).quarantine i).lane j).state != .quarantined)) = [] := by
    simp [State.lane_quarantine, Lane.enter]
  unfold State.leaveAll
  simp only [List.foldl_cons, List.foldl_nil, left, gone, List.reverse_nil]
  cases e <;> rfl

/-- What `t` says of a lane `o` of `s` that has been replaced and has left (R15, R119). -/
structure State.Replaced (s t : State) (o : LaneId) : Prop where
  state : (t.lane o).state = .quarantined
  place : (t.lane o).place = none
  presumed : (s.lane o).failure = none → (t.lane o).peerFence = true ∧ t.placed = s.placed
  fenced : ∀ w, (s.lane o).failure = some w →
    (t.lane o).localFence = true ∧ t.placed = s.placed ++ [.fence (byteOf o.val) (.failure w)]

theorem State.Replaced.congr {s s' t t' : State} {o : LaneId} (h : s.Replaced t o)
    (before : (s'.lane o).failure = (s.lane o).failure) (placed : s'.placed = s.placed) (after : t'.lane o = t.lane o)
    (placed' : t'.placed = t.placed) : s'.Replaced t' o :=
  ⟨by rw [after, h.state], by rw [after, h.place], by rw [before, after, placed, placed']; exact h.presumed,
    by rw [before, after, placed, placed']; exact h.fenced⟩

theorem State.replaced_leaveAll {s : State} (o : LaneId) (v : s.scratch.overflow = false) (room : s.Room 1) (e : PoolEnd) :
    s.Replaced (s.leaveAll [o] true e) o ∧ (∀ j, j ≠ o → (s.leaveAll [o] true e).lane j = s.lane j)
      ∧ (∀ c, (s.leaveAll [o] true e).circuit c = s.circuit c) ∧ (s.leaveAll [o] true e).ports = s.ports
      ∧ (s.leaveAll [o] true e).scratch = s.scratch := by
  cases why : (s.lane o).failure with
  | none =>
    rw [State.leaveAll_presumed why]
    have lane (j) : ((s.setPeerFence o).quarantine o).lane j
        = if j = o then ({ s.lane o with peerFence := true } : Lane).clearPlace.enter .quarantined else s.lane j := by
      rw [State.lane_quarantine, State.lane_setPeerFence, State.lane_setPeerFence]
      split
      · rw [if_pos rfl]
      · rfl
    have own := (lane o).trans (if_pos rfl)
    refine ⟨⟨by rw [own]; rfl, by rw [own]; rfl, fun _ => ⟨by rw [own]; rfl, rfl⟩, fun w h => ?_⟩,
      fun j ne => (lane j).trans (if_neg ne), fun _ => rfl, rfl, rfl⟩
    rw [why] at h
    cases h
  | some w =>
    rw [State.leaveAll_failed why]
    obtain ⟨marks, placed⟩ := s.setLocalFence_room o (s.ownerTag o) (.failure w) v room.lt
    have lane (j) : ((s.setLocalFence o (s.ownerTag o) (.failure w)).quarantine o).lane j
        = if j = o then ((s.lane o).fenceLocally s.params).clearPlace.enter .quarantined else s.lane j := by
      rw [State.lane_quarantine, State.lane_setLocalFence, State.lane_setLocalFence]
      split
      · rw [if_pos rfl]
      · rfl
    have own := (lane o).trans (if_pos rfl)
    refine ⟨⟨by rw [own]; rfl, by rw [own]; rfl, fun h => ?_, fun w' h => ?_⟩,
      fun j ne => (lane j).trans (if_neg ne), fun c => ?_, by simp, (State.quarantine_scratch _ _).trans marks⟩
    · rw [why] at h
      cases h
    · obtain rfl := Option.some.inj (why.symm.trans h)
      refine ⟨by rw [own]; rfl, ?_⟩
      rw [State.placed_quarantine, placed, if_pos room.1]
      rfl
    · obtain ⟨-, -, -, -, -, slots, -⟩ := s.setLocalFence_rest o (s.ownerTag o) (.failure w)
      rw [State.circuit, State.quarantine_slots, slots, State.circuit]

theorem State.settle_of_repairing {s : State} {c : SlotId} {x : Circuit} (h : s.circuit c = some x)
    (state : x.state = .repairing) : s.settle c =
      if s.inRepair x = false then (s.setCircuit c { x with state := .up }).notify x.near (.circuitRepaired c) else s := by
  simp only [State.settle, h, state, true_and]
  split
  · rfl
  · rw [State.upDecision_of h, if_neg (by simp [state])]

/-- R119: the position after the switchover to lane `i`. -/
def Position.switched (i : LaneId) (q : Position) : Position := { q.endRepair with current := some i, replacement := none }

/-- R119: the circuit after the switchover at position `n` to lane `i`. -/
def Circuit.switched (x : Circuit) (n : Nat) (i : LaneId) : Circuit :=
  { x with positions := x.positions.modify n (Position.switched i), repairCount := satSucc 255 x.repairCount }

theorem Circuit.getElem?_switched {x : Circuit} {n : Nat} {p : Position} (h : x.positions[n]? = some p) (i : LaneId) :
    (x.switched n i).positions[n]? = some (p.switched i) := by
  simp [Circuit.switched, h]

/-- R109, R119: no repair is in course after a switchover where no other position is in repair. -/
theorem State.inRepair_switched {s : State} {x : Circuit} {n : Nat} {p : Position} {i : LaneId}
    (position : x.positions[n]? = some p) (own : (s.lane i).state ≠ .failing)
    (others : ∀ m u, m ≠ n → x.positions[m]? = some u →
      u.repair = .none ∧ ∀ j, u.current = some j → (s.lane j).state ≠ .failing) :
    s.inRepair (x.switched n i) = false := by
  have each : ∀ q ∈ (x.switched n i).positions,
      q.repair = .none ∧ ∀ j, q.current = some j → (s.lane j).state ≠ .failing := by
    intro q mem
    obtain ⟨m, hm⟩ := List.mem_iff_getElem?.mp mem
    by_cases e : m = n
    · subst e
      obtain rfl := Option.some.inj (hm.symm.trans (Circuit.getElem?_switched position i))
      exact ⟨rfl, fun j hj => by cases hj; exact own⟩
    · refine others m q e ?_
      simpa [Circuit.switched, List.getElem?_modify, Ne.symm e] using hm
  unfold State.inRepair
  split
  · rw [List.any_eq_false]
    exact fun q mem => by simp [(each q mem).1]
  · rw [List.any_eq_false]
    intro q mem
    obtain ⟨none, sound⟩ := each q mem
    simpa [none, Option.any_eq_true] using sound

/-- What `t` is where, from `s`, the replacement lane `i` of the position `n` of the circuit `x` has taken over from the lane
`o` (R119): `y` is the circuit then. -/
structure State.SwitchesOver (s t : State) (i o : LaneId) (c : SlotId) (n : Nat) (x y : Circuit) (p : Position) : Prop where
  lane : t.lane i = { (s.lane i).enter .active with place := some ⟨c, .current, n⟩ }
  left : s.Replaced t o
  other : ∀ j, j ≠ i → j ≠ o → t.lane j = s.lane j
  marks : t.scratch = s.scratch
  circuit : t.circuit c = some y
  near : y.near = x.near
  count : y.repairCount = satSucc 255 x.repairCount
  position : y.positions[n]? = some (p.switched i)
  up : (∀ m u, m ≠ n → x.positions[m]? = some u →
      u.repair = .none ∧ ∀ j, u.current = some j → (s.lane j).state ≠ .failing) →
    y.state = .up ∧ ((s.port x.near).link ≠ .absent →
      (t.port x.near).notices = queueNotice (s.port x.near).notices (.circuitRepaired c))

/-- R119: a lane that has become the current lane of its position. -/
def Lane.madeCurrent (l : Lane) : Lane := { l with place := l.place.map fun pl => { pl with role := .current } }

theorem State.Fills.activate_replacement {s : State} {i o : LaneId} {c : SlotId} {n : Nat} {x : Circuit} {p : Position}
    (h : s.Fills i ⟨c, .replacement, n⟩ x p) (current : p.current = some o) :
    s.activate i = ((((((s.moveLane i .active).modLane i Lane.madeCurrent).modPosition c n (Position.switched i)).leaveAll
      [o] true .tail).modCircuit c fun x => { x with repairCount := satSucc 255 x.repairCount }).settle c) := by
  have moved := h.moveLane .active
  unfold State.activate
  dsimp only
  rw [moved.place]
  dsimp only
  rw [State.switchover, State.position_eq moved.circuit, moved.position]
  dsimp only
  rw [current]
  rfl

/-- R119: a replacement lane enters ACTIVE, and its position's old lane leaves. -/
theorem State.Fills.switchesOver {s : State} {i o : LaneId} {c : SlotId} {n : Nat} {x : Circuit} {p : Position}
    (h : s.Fills i ⟨c, .replacement, n⟩ x p) (current : p.current = some o) (ne : i ≠ o) (state : x.state = .repairing)
    (v : s.scratch.overflow = false) (room : s.Room 1) : ∃ y, s.SwitchesOver (s.activate i) i o c n x y p := by
  rw [h.activate_replacement current]
  have lane (j) : (((s.moveLane i .active).modLane i Lane.madeCurrent).modPosition c n (Position.switched i)).lane j
      = if j = i then { (s.lane i).enter .active with place := some ⟨c, .current, n⟩ } else s.lane j := by
    rw [State.lane_modPosition, State.lane_modLane, State.lane_moveLane, State.lane_moveLane, if_pos rfl]
    split
    · have place : ((s.lane i).enter .active).place = some ⟨c, .replacement, n⟩ := h.place
      simp [Lane.madeCurrent, place]
    · rfl
  have circuit : (((s.moveLane i .active).modLane i Lane.madeCurrent).modPosition c n (Position.switched i)).circuit c
      = some { x with positions := x.positions.modify n (Position.switched i) } := by
    have here : ((s.moveLane i .active).modLane i Lane.madeCurrent).circuit c = some x := h.circuit
    rw [State.circuit_modPosition, if_pos rfl, here]
    rfl
  have marks : (((s.moveLane i .active).modLane i Lane.madeCurrent).modPosition c n (Position.switched i)).scratch
      = s.scratch := by simp
  have placed : (((s.moveLane i .active).modLane i Lane.madeCurrent).modPosition c n (Position.switched i)).placed
      = s.placed := by simp [State.placed]
  have ports : (((s.moveLane i .active).modLane i Lane.madeCurrent).modPosition c n (Position.switched i)).ports
      = s.ports := by simp
  have room' : (((s.moveLane i .active).modLane i Lane.madeCurrent).modPosition c n (Position.switched i)).Room 1 := by
    simpa [State.Room] using room
  generalize ((s.moveLane i .active).modLane i Lane.madeCurrent).modPosition c n (Position.switched i) = u at *
  obtain ⟨left, other, circuits, ports', marks'⟩ := u.replaced_leaveAll o (by rw [marks]; exact v) room' .tail
  generalize u.leaveAll [o] true .tail = w at *
  have rest := w.modCircuit_rest c fun x => { x with repairCount := satSucc 255 x.repairCount }
  obtain ⟨-, -, -, -, -, -, -, -, -, ports'', -, -, -, marks'', placed'', lanes''⟩ := rest
  have circuit' : (w.modCircuit c fun x => { x with repairCount := satSucc 255 x.repairCount }).circuit c
      = some (x.switched n i) := by
    rw [State.circuit_modCircuit, if_pos rfl, circuits, circuit]
    rfl
  generalize (w.modCircuit c fun x => { x with repairCount := satSucc 255 x.repairCount }) = z at *
  have own : z.lane i = { (s.lane i).enter .active with place := some ⟨c, .current, n⟩ } := by
    rw [lanes'', other i ne, lane, if_pos rfl]
  have gone : s.Replaced z o := left.congr (by rw [lane, if_neg ne.symm]) placed.symm (lanes'' o) placed''
  have others (j) (a : j ≠ i) (b : j ≠ o) : z.lane j = s.lane j := by rw [lanes'', other j b, lane, if_neg a]
  have marks : z.scratch = s.scratch := marks''.trans (marks'.trans marks)
  have ports : z.ports = s.ports := ports''.trans (ports'.trans ports)
  have position := Circuit.getElem?_switched h.position i
  rw [State.settle_of_repairing circuit' state]
  split
  · obtain ⟨-, -, -, -, -, -, -, -, -, -, scratch, place, lanes⟩ := z.noticeAlone_setCircuit_notify c
      { x.switched n i with state := .up } (x.switched n i).near (.circuitRepaired c)
    refine ⟨{ x.switched n i with state := .up }, (lanes i).trans own, gone.congr rfl rfl (lanes o) place,
      fun j a b => (lanes j).trans (others j a b), scratch.trans marks, by simp, rfl, rfl, position,
      fun _ => ⟨rfl, fun present => ?_⟩⟩
    have port : z.port x.near = s.port x.near := by rw [State.port, ports]; rfl
    rw [← port] at present ⊢
    exact State.notices_setCircuit_notify _ _ _ _ present
  · rename_i busy
    refine ⟨x.switched n i, own, gone, others, marks, circuit', rfl, rfl, position, fun free => absurd ?_ busy⟩
    refine State.inRepair_switched h.position (by rw [own]; exact fun e => nomatch e) fun m u hm hu => ?_
    obtain ⟨none, sound⟩ := free m u hm hu
    refine ⟨none, fun j hj st => ?_⟩
    by_cases a : j = i
    · rw [a, own] at st
      cases st
    · by_cases b : j = o
      · rw [b, gone.state] at st
        cases st
      · rw [others j a b] at st
        exact sound j hj st

/-- R10: the lane that took over is bound to its position's host lane. -/
theorem State.SwitchesOver.boundTo {s t : State} {i o : LaneId} {c : SlotId} {n : Nat} {x y : Circuit} {p : Position}
    (h : s.SwitchesOver t i o c n x y p) : t.boundTo i = some (x.near, p.hostLane) := by
  have fills : t.Fills i ⟨c, .current, n⟩ y (p.switched i) := ⟨by rw [h.lane], h.circuit, h.position⟩
  rw [fills.boundTo (.inl (by rw [h.lane]; rfl)), h.near]
  rfl

end Sys2Proof.Machine
end

section
/-! SUPPORT. Sys2Proof/Proofs/Trained.lean: TRAINED from the peer (R37, R39, R119). -/

namespace Sys2Proof.Machine

open Sys2Proof

/-- R24: the record a tag matches stands in its slot. -/
theorem State.circuit_of_matchTag {s : State} {g : Tag} {c : SlotId} {x : Circuit} (h : s.matchTag g = some (c, x)) :
    s.circuit c = some x := by
  unfold State.matchTag at h
  split at h
  · split at h
    · rename_i y hy
      split at h
      · obtain ⟨rfl, rfl⟩ := Prod.mk.inj (Option.some.inj h)
        exact hy
      · cases h
    · cases h
  · obtain ⟨d, -, hd⟩ := List.mem_filterMap.mp (List.mem_of_find?_eq_some h)
    obtain ⟨y, hy, e⟩ := Option.map_eq_some_iff.mp hd
    obtain ⟨rfl, rfl⟩ := Prod.mk.inj e
    exact hy

/-! ### The lane that a TRAINED is for (R37) -/

theorem State.trainingLane_none {s : State} {p : Position}
    (h : ∀ i ∈ p.lanes, (s.lane i).state ≠ .training ∧ (s.lane i).state ≠ .qualified) : s.trainingLane p = none := by
  refine List.find?_eq_none.mpr fun i m => ?_
  simpa using h i m

theorem State.trainingLane_current {s : State} {p : Position} {i : LaneId} (current : p.current = some i)
    (st : (s.lane i).state = .training ∨ (s.lane i).state = .qualified) : s.trainingLane p = some i := by
  simp [State.trainingLane, Position.lanes, current, st]

theorem State.trainingLane_replacement {s : State} {p : Position} {i o : LaneId} (current : p.current = some o)
    (other : ¬((s.lane o).state = .training ∨ (s.lane o).state = .qualified)) (replacement : p.replacement = some i)
    (st : (s.lane i).state = .training ∨ (s.lane i).state = .qualified) : s.trainingLane p = some i := by
  simp [State.trainingLane, Position.lanes, current, other, replacement, st]

theorem State.takeTrained_of {s : State} {g : Tag} {c : SlotId} {x : Circuit} (h : s.matchTag g = some (c, x))
    (live : x.live = true) (b : Byte) (ok : Bool) : s.takeTrained g b ok =
      match x.positions[b.toNat]?.bind s.trainingLane with
      | none => s
      | some i => s.trainedLane i ok := by
  simp only [State.takeTrained, h, live, State.position_eq (State.circuit_of_matchTag h)] <;> rfl

/-- R37: a lane whose peer has reported that it is trained. -/
def Lane.reported (l : Lane) : Lane := { l with peerTrained := true }

theorem State.trainedLane_training {s : State} {i : LaneId} (st : (s.lane i).state = .training) :
    s.trainedLane i true = s.modLane i Lane.reported := by
  have still : ((s.modLane i Lane.reported).lane i).state ≠ .qualified := by
    rw [State.lane_modLane, if_pos rfl]
    exact fun e => nomatch (show LaneState.training = .qualified from st.symm.trans e)
  exact if_neg still

theorem State.trainedLane_qualified {s : State} {i : LaneId} (st : (s.lane i).state = .qualified) :
    s.trainedLane i true = (s.modLane i Lane.reported).activate i := by
  have still : ((s.modLane i Lane.reported).lane i).state = .qualified := by
    rw [State.lane_modLane, if_pos rfl]
    exact st
  exact if_pos still

theorem State.OthersActive.congr {s t : State} {x : Circuit} {n : Nat} (h : s.OthersActive x n)
    (same : ∀ j, (t.lane j).state = (s.lane j).state) : t.OthersActive x n := by
  intro m q ne hq held
  obtain ⟨none, j, hj, st⟩ := h m q ne hq held
  exact ⟨none, j, hj, (same j).trans st⟩

section Clauses

variable {s r : State} {q a : Seq} {g : Tag} {b : Byte} {c : SlotId} {x : Circuit} {p : Position} {i o : LaneId}

/-- The records on a report: only the flag of its lane has changed. -/
theorem State.lane_reported (r : State) (i j : LaneId) :
    (r.received.modLane i Lane.reported).lane j = if j = i then (r.lane i).reported else r.lane j := by
  rw [State.lane_modLane]
  rfl

theorem State.state_reported (r : State) (i j : LaneId) :
    ((r.received.modLane i Lane.reported).lane j).state = (r.lane j).state := by
  rw [State.lane_reported]
  split
  · rename_i e
    rw [e]
    rfl
  · rfl

theorem trained_qualified_current (clear : r.Unmarked) (circuit : r.circuit c = some x)
    (position : x.positions[b.toNat]? = some p) (current : p.current = some i) (st : (r.lane i).state = .qualified)
    (place : (r.lane i).place = some ⟨c, .current, b.toNat⟩) (setup : x.state = .training)
    (repair : p.repair = .none ∨ p.repair = .replacing) :
    ∃ t y, (r.received.trainedLane i true).finish = t
      ∧ t.lane i = { r.lane i with
          state := .active, peerTrained := true, run := (r.lane i).run + 1, training := none }
      ∧ (∀ j, j ≠ i → t.lane j = r.lane j) ∧ t.boundTo i = some (x.near, p.hostLane)
      ∧ t.circuit c = some y ∧ y.lanes = x.lanes ∧ (y.positions[b.toNat]?).map (·.repair) = some .none
      ∧ (r.OthersActive x b.toNat → y.state = .up ∧ y.everUp = true
        ∧ ((r.port x.near).link ≠ .absent → (t.port x.near).notices
            = queueNotice (r.port x.near).notices (.circuitUp c x.role x.reqTag x.width)))
      ∧ ((∃ n o, n ≠ b.toNat ∧ x.positions[n]? = some o ∧ o.dropped = false
          ∧ ∀ j, o.current = some j → j ≠ i ∧ (r.lane j).state ≠ .active) →
        y.state = .training ∧ t.ports = r.ports) := by
  have lane := State.lane_reported r i
  have state := State.state_reported r i
  have fills : (r.received.modLane i Lane.reported).Fills i ⟨c, .current, b.toNat⟩ x p :=
    ⟨by rw [lane, if_pos rfl]; exact place, circuit, position⟩
  obtain ⟨y, joins⟩ := fills.joinsUp setup current repair
  have bound := joins.boundTo fills.place
  rw [State.trainedLane_qualified (s := r.received) st, State.finish_of_received clear joins.marks]
  refine ⟨_, y, rfl, ?_⟩
  have own := joins.lane i
  rw [if_pos rfl, lane, if_pos rfl] at own
  rw [State.lane_unmark, own]
  refine ⟨?_, fun j ne => ?_, ?_, ?_, joins.lanes, ?_, fun others => ?_, ?_⟩
  · simp [Lane.enter, Lane.reported, st]
  · rw [State.lane_unmark, joins.lane, if_neg ne, lane, if_neg ne]
  · exact bound
  · exact joins.circuit
  · rw [joins.position]
    exact congrArg some (Position.repair_setupRepairDone repair)
  · exact joins.up (State.OthersActive.congr others state)
  · rintro ⟨m, o, ne, hm, held, idle⟩
    refine joins.waits ⟨m, o, ne, hm, held, fun j hj => ⟨(idle j hj).1, ?_⟩⟩
    rw [state]
    exact (idle j hj).2

theorem trained_qualified_replacement (clear : r.Unmarked) (circuit : r.circuit c = some x)
    (position : x.positions[b.toNat]? = some p) (current : p.current = some o) (ne : i ≠ o)
    (st : (r.lane i).state = .qualified) (place : (r.lane i).place = some ⟨c, .replacement, b.toNat⟩)
    (repairing : x.state = .repairing) (room : r.Room 1) :
    ∃ t y, (r.received.trainedLane i true).finish = t
      ∧ (t.lane i).state = .active ∧ (t.lane i).place = some ⟨c, .current, b.toNat⟩
      ∧ (t.lane i).run = (r.lane i).run + 1 ∧ t.boundTo i = some (x.near, p.hostLane)
      ∧ (t.lane o).state = .quarantined ∧ (t.lane o).place = none ∧ t.boundTo o = none
      ∧ ((r.lane o).failure = none → (t.lane o).peerFence = true ∧ t.placed = r.placed)
      ∧ (∀ w, (r.lane o).failure = some w →
          (t.lane o).localFence = true ∧ t.placed = r.placed ++ [.fence (byteOf o.val) (.failure w)])
      ∧ (∀ j, j ≠ i → j ≠ o → t.lane j = r.lane j)
      ∧ t.circuit c = some y ∧ y.repairCount = min 255 (x.repairCount + 1)
      ∧ y.positions[b.toNat]? = some { p with
          repair := .none, current := some i, replacement := none, attempts := 0, patience := none }
      ∧ ((∀ n u, n ≠ b.toNat → x.positions[n]? = some u →
          u.repair = .none ∧ ∀ j, u.current = some j → (r.lane j).state ≠ .failing) →
        y.state = .up ∧ ((r.port x.near).link ≠ .absent →
          (t.port x.near).notices = queueNotice (r.port x.near).notices (.circuitRepaired c))) := by
  have lane := State.lane_reported r i
  have state := State.state_reported r i
  have fills : (r.received.modLane i Lane.reported).Fills i ⟨c, .replacement, b.toNat⟩ x p :=
    ⟨by rw [lane, if_pos rfl]; exact place, circuit, position⟩
  obtain ⟨y, turned⟩ := fills.switchesOver current ne repairing (by simp [State.scratch_received clear]) room
  have bound := turned.boundTo
  rw [State.trainedLane_qualified (s := r.received) st, State.finish_of_received clear turned.marks]
  refine ⟨_, y, rfl, ?_⟩
  have own := turned.lane
  rw [lane, if_pos rfl] at own
  have gone : r.Replaced _ o := turned.left.congr (s' := r) (by rw [lane, if_neg ne.symm]) rfl
    (State.lane_unmark _ o) rfl
  rw [State.lane_unmark, own]
  refine ⟨rfl, rfl, rfl, bound, gone.state, gone.place, ?_, gone.presumed, gone.fenced, fun j hi ho => ?_, turned.circuit,
    ?_, turned.position, fun free => turned.up fun m u hm hu => ?_⟩
  · exact State.boundTo_of_other (by rw [gone.state]; decide)
  · rw [State.lane_unmark, turned.other j hi ho, lane, if_neg hi]
  · rw [turned.count]
    rfl
  · obtain ⟨none, sound⟩ := free m u hm hu
    exact ⟨none, fun j hj => by rw [state]; exact sound j hj⟩

end Clauses

/-- Settles O47, by the lane that the position has in training, and the report. -/
theorem trainedTaken : Obligations.TrainedTaken := by
  rintro s r q a g b ok inOrder rfl clear
  have clear : (s.counted a).Unmarked := (s.scratch_counted a).trans clear
  have taken : exec (.trained q a g b ok) s = .next ((s.counted a).received.takeTrained g b ok).finish :=
    congrArg Host.Outcome.next (State.receive_inOrder inOrder a _)
  rw [taken]
  generalize s.counted a = r at clear
  have idle := State.finish_received clear
  refine ⟨fun unknown => ?_, fun c x known => ⟨fun dead => ?_, fun live => ⟨fun beyond => ?_, fun p position =>
    ⟨fun quiet => ?_, fun i current single st => ⟨fun ok => ?_, fun fail answer place => ?_⟩,
      fun i current st place ok setup held repair => ?_,
      fun i o replacement current ne st place old ok repairing held room => ?_⟩⟩⟩⟩
  · have unknown : r.received.matchTag g = none := unknown
    rw [State.takeTrained, unknown]
    exact congrArg _ idle
  · have known : r.received.matchTag g = some (c, x) := known
    have dead : x.live = false := by rcases dead with e | e <;> simp [Circuit.live, e]
    simp only [State.takeTrained, known, dead, if_true, idle]
  · rw [State.takeTrained_of (s := r.received) known live, beyond]
    exact congrArg _ idle
  · rw [State.takeTrained_of (s := r.received) known live, position]
    simp only [Option.bind_some, State.trainingLane_none (s := r.received) quiet, idle]
  · subst ok
    have here : r.received.trainingLane p = some i := State.trainingLane_current current (.inl st)
    rw [State.takeTrained_of (s := r.received) known live, position]
    simp only [Option.bind_some, here]
    rw [State.trainedLane_training (s := r.received) st, State.finish_of_received clear (by simp)]
    exact congrArg _ (State.unmark_modLane_received clear i _)
  · subst fail
    have here : r.received.trainingLane p = some i := State.trainingLane_current current (.inl st)
    have fills : (r.received.setPeerFence i).Fills i ⟨c, .current, b.toNat⟩ x p :=
      State.Fills.setPeerFence ⟨place, State.circuit_of_matchTag known, position⟩
    have left : r.received.trainedLane i false = (r.received.setPeerFence i).outOfCircuit i :=
      fills.expel_quiet (.inl answer)
    rw [State.takeTrained_of (s := r.received) known live, position]
    simp only [Option.bind_some, here]
    rw [left, State.finish_of_received clear (by simp)]
    refine ⟨_, rfl, ?_⟩
    have out : ∀ j, ((r.received.setPeerFence i).outOfCircuit i).lane j =
        if j = i then ({ r.lane i with peerFence := true } : Lane).clearPlace.enter .quarantined else r.lane j :=
      State.lane_setPeerFence_outOfCircuit r.received i
    have own := (out i).trans (if_pos rfl)
    simp only [State.unmark_rest, own, fills.circuit_outOfCircuit]
    exact ⟨rfl, rfl, rfl, rfl, rfl, fun j ne => (out j).trans (if_neg ne), rfl⟩
  · subst ok
    have here : r.received.trainingLane p = some i := State.trainingLane_current current (.inr st)
    rw [State.takeTrained_of (s := r.received) known live, position]
    simp only [Option.bind_some, here]
    obtain ⟨t, y, rfl, rest⟩ := trained_qualified_current clear (State.circuit_of_matchTag known) position current st place
      setup repair
    exact ⟨_, y, rfl, rest⟩
  · subst ok
    have here : r.received.trainingLane p = some i :=
      State.trainingLane_replacement current (by rcases old with e | e <;> simp [e]) replacement (.inr st)
    rw [State.takeTrained_of (s := r.received) known live, position]
    simp only [Option.bind_some, here]
    obtain ⟨t, y, rfl, rest⟩ := trained_qualified_replacement clear (State.circuit_of_matchTag known) position current ne st
      place repairing room
    exact ⟨_, y, rfl, rest⟩

end Sys2Proof.Machine
end

section
/-! SUPPORT. Sys2Proof/Proofs/Confirm.lean: the CONFIRM that ends a training run well (R88). -/

namespace Sys2Proof.Machine

open Sys2Proof

/-- R10: what a lane is bound to hangs on its record and the circuits alone. -/
theorem State.boundTo_congr {s t : State} {i : LaneId} (lane : t.lane i = s.lane i) (slots : t.slots = s.slots) :
    t.boundTo i = s.boundTo i := by
  have circuit (c) : t.circuit c = s.circuit c := congrArg (fun sl => (sl.get c).circuit) slots
  simp only [State.boundTo, lane, circuit]

/-- The end of an event that has only a grant to make: a lane that trains no longer is as the event left it (R71). -/
theorem State.finish_of_granting {s : State} (marks : s.scratch = { grant := true }) {i : LaneId}
    (idle : (s.lane i).training = none) :
    s.finish.lane i = s.lane i ∧ s.finish.boundTo i = s.boundTo i ∧ s.finish.placed = s.placed
      ∧ (∀ c, s.finish.circuit c = s.circuit c) ∧ ∀ h, s.finish.port h = s.port h := by
  obtain ⟨ls, q, us, e, lane⟩ := s.ite_grant_eq
  obtain ⟨_, _, _, same⟩ := lane i
  rw [s.finish_of_unserved (by rw [marks]) (by rw [marks]) (by rw [marks]), e]
  exact ⟨same idle, State.boundTo_congr (same idle) rfl, rfl, fun _ => rfl, fun _ => rfl⟩

/-- R75: the state in which a result is delivered: its unit is free, and a grant is due. -/
def State.freed (s : State) (u : UnitId) : State := State.grantDue { s with units := s.units.set u none }

/-- R36, R88: a lane's successful CONFIRM on record, and TRAINED(OK) sent for the position `n` of the circuit `x`. -/
def State.confirms (s : State) (i : LaneId) (best : PresetId) (f : Byte) (x : Circuit) (n : Nat) : State :=
  (s.modLane i (Lane.confirmed s.params best f)).sent (.trained x.tag (byteOf n) true)

theorem State.lane_confirms (s : State) (i j : LaneId) (best : PresetId) (f : Byte) (x : Circuit) (n : Nat) :
    (s.confirms i best f x n).lane j = if j = i then (s.lane i).confirmed s.params best f else s.lane j :=
  s.lane_modLane i j _

theorem State.placed_confirms {s : State} (h : s.sendQueue = []) (i : LaneId) (best : PresetId) (f : Byte) (x : Circuit)
    (n : Nat) : (s.confirms i best f x n).placed = s.placed ++ [.trained x.tag (byteOf n) true] :=
  State.placed_sent (s.modLane i (Lane.confirmed s.params best f)) _ h

theorem State.Fills.confirms {s : State} {i : LaneId} {pl : Place} {x : Circuit} {p : Position} (h : s.Fills i pl x p)
    (best : PresetId) (f : Byte) : (s.confirms i best f x pl.position).Fills i pl x p :=
  h.congr (by rw [State.lane_confirms, if_pos rfl]; rfl) rfl

/-- R36, R88: a training run succeeds. -/
theorem State.trainingSucceeds_of {s : State} {i : LaneId} {pl : Place} {x : Circuit}
    (place : (s.lane i).place = some pl) (circuit : s.circuit pl.slot = some x) (can : s.CanSend)
    (v : s.scratch.overflow = false) (best : PresetId) (f : Byte) :
    s.trainingSucceeds i best f =
      if (s.lane i).peerTrained then (s.confirms i best f x pl.position).activate i
      else (s.confirms i best f x pl.position).moveLane i .qualified := by
  have lane : (s.modLane i (Lane.confirmed s.params best f)).lane i = (s.lane i).confirmed s.params best f := by
    rw [State.lane_modLane, if_pos rfl]
  have place' : ((s.modLane i (Lane.confirmed s.params best f)).lane i).place = some pl := by rw [lane]; exact place
  have circuit' : (s.modLane i (Lane.confirmed s.params best f)).circuit pl.slot = some x := circuit
  have owner : (s.modLane i (Lane.confirmed s.params best f)).ownerTag i = some x.tag := by
    rw [State.ownerTag, place', Option.bind_some, circuit']
    rfl
  have told : (s.modLane i (Lane.confirmed s.params best f)).sendTrained i true = s.confirms i best f x pl.position := by
    rw [State.sendTrained, place', owner]
    exact State.send_of_canSend _ _ can v
  have peer : ((s.confirms i best f x pl.position).lane i).peerTrained = (s.lane i).peerTrained := by
    rw [State.lane_confirms, if_pos rfl]
    rfl
  rw [State.trainingSucceeds, told, peer]

/-- R75, R88: a current CONFIRM result of at least Q. -/
theorem exec_confirm {s : State} {u : UnitId} {d : Dwell} {f : Byte} {rec : TrainRec} (busy : s.unit u = some d)
    (train : d.purpose = .train) (run : d.run = (s.lane d.lane).run) (training : (s.lane d.lane).training = some rec)
    (confirm : rec.phase = .confirm) (enough : s.params.qualify ≤ f.toNat) :
    exec (.dwellResult u (.fom f)) s = .next ((s.freed u).trainingSucceeds d.lane rec.current f).finish := by
  have result : (s.freed u).deliverResult d (.fom f) = (s.freed u).trainingSucceeds d.lane rec.current f := by
    have training' : ((s.freed u).lane d.lane).training = some rec := training
    rw [State.deliverResult, train]
    dsimp only
    rw [State.trainResult, training']
    dsimp only
    rw [confirm]
    exact if_pos enough
  have ended : s.dwellEnds u d (.fom f) = ((s.freed u).trainingSucceeds d.lane rec.current f).finish := by
    rw [← result]
    exact congrArg State.finish (if_pos run)
  change Host.Outcome.next (match s.unit u with | none => s | some d => s.dwellEnds u d (.fom f)) = _
  rw [busy]
  exact congrArg _ ended

/-- Settles O55, by whether the peer has already reported its end of the lane. -/
theorem confirmQualifies : Obligations.ConfirmQualifies := by
  intro s u d f rec pl x busy train run training confirm enough place circuit clear can
  rw [exec_confirm busy train run training confirm enough,
    State.trainingSucceeds_of (s := s.freed u) place circuit can (by simp [State.freed, State.grantDue, clear])]
  have lane := State.lane_confirms (s.freed u) d.lane d.lane rec.current f x pl.position
  rw [if_pos rfl] at lane
  have marks : ((s.freed u).confirms d.lane rec.current f x pl.position).scratch = { grant := true } := by
    change { s.scratch with grant := true } = _
    rw [clear]
  have placed : ((s.freed u).confirms d.lane rec.current f x pl.position).placed
      = s.placed ++ [.trained x.tag (byteOf pl.position) true] := 
    State.placed_confirms (s := s.freed u) can.2.1 ..
  refine ⟨fun unset => ?_, fun p set st role setup position held current repair => ?_⟩
  · have unset : ((s.freed u).lane d.lane).peerTrained = false := unset
    have own := ((s.freed u).confirms d.lane rec.current f x pl.position).lane_moveLane d.lane d.lane .qualified
    rw [if_pos rfl, lane] at own
    obtain ⟨record, -, sent, -, -⟩ := State.finish_of_granting (i := d.lane)
      (s := ((s.freed u).confirms d.lane rec.current f x pl.position).moveLane d.lane .qualified)
      ((State.moveLane_scratch ..).trans marks) (by rw [own]; rfl)
    rw [if_neg (by rw [unset]; decide)]
    refine ⟨_, rfl, ?_⟩
    rw [record, own, sent]
    exact ⟨rfl, rfl, rfl, rfl, rfl, rfl, placed⟩
  · have set : ((s.freed u).lane d.lane).peerTrained = true := set
    have fills : (s.freed u).Fills d.lane ⟨pl.slot, .current, pl.position⟩ x p := by
      rw [← role]
      exact ⟨place, circuit, position⟩
    have confirmed := fills.confirms rec.current f
    obtain ⟨y, joins⟩ := confirmed.joinsUp setup current repair
    have bound := joins.boundTo confirmed.place
    have own := joins.lane d.lane
    rw [if_pos rfl] at own
    obtain ⟨record, binding, sent, circuits, ports⟩ := State.finish_of_granting (joins.marks.trans marks)
      (i := d.lane) (by rw [own]; rfl)
    dsimp only at own record binding sent circuits ports bound
    rw [if_pos set]
    refine ⟨_, y, rfl, ?_⟩
    rw [record, own, lane, binding, sent, circuits, ports]
    refine ⟨rfl, rfl, rfl, rfl, rfl, rfl, joins.placed.trans placed, bound, joins.circuit, fun others => joins.up ?_⟩
    refine State.OthersActive.congr others fun j => ?_
    rw [State.lane_confirms]
    split
    · rename_i e
      rw [e]
      rfl
    · rfl

end Sys2Proof.Machine
end

section
/-! SUPPORT. Sys2Proof/Proofs/Setup.lean: a SETUP that is accepted (R34, R35, R82). -/

namespace Sys2Proof.Machine

open Sys2Proof

/-! ### Lanes that leave their positions (R26, R34) -/

/-- A position names no lane in a role. -/
abbrev Position.Vacated (q : Position) (role : LaneRole) : Prop :=
  (role = .current → q.current = none) ∧ (role = .replacement → q.replacement = none)

theorem Position.vacated_without (role : LaneRole) (q : Position) :
    (q.without role).Vacated role ∧ ∀ other, q.Vacated other → (q.without role).Vacated other := by
  cases role
  · exact ⟨⟨fun _ => rfl, fun e => nomatch e⟩, fun _ h => ⟨fun _ => rfl, h.2⟩⟩
  · exact ⟨⟨fun e => (nomatch e), fun _ => rfl⟩, fun _ h => ⟨h.1, fun _ => rfl⟩⟩

/-- What an act that unnames lanes leaves of the circuit `z` of slot `d` and its position `q`, numbered `n`: the position
is vacated in the roles `gone`, and in those it was vacated in. -/
abbrev State.Unnamed (t : State) (d : SlotId) (z : Circuit) (n : Nat) (q : Position) (gone : LaneRole → Prop) : Prop :=
  ∃ z' q', t.circuit d = some z' ∧ z'.state = z.state ∧ z'.positions[n]? = some q'
    ∧ ∀ role, q.Vacated role ∨ gone role → q'.Vacated role

theorem State.unnamed_unname {s : State} {d : SlotId} {z : Circuit} {n : Nat} {q : Position} (hz : s.circuit d = some z)
    (hq : z.positions[n]? = some q) (i : LaneId) :
    (s.unname i).Unnamed d z n q fun role => (s.lane i).place = some ⟨d, role, n⟩ := by
  cases place : (s.lane i).place with
  | none =>
    have same : s.unname i = s := by rw [State.unname, place]
    rw [same]
    exact ⟨z, q, hz, rfl, hq, fun role h => h.resolve_right fun e => nomatch e⟩
  | some pl =>
    rw [State.unname_of_place place]
    by_cases slot : d = pl.slot
    · subst slot
      refine ⟨{ z with positions := z.positions.modify pl.position (Position.without pl.role) },
        if pl.position = n then q.without pl.role else q, ?_, rfl, ?_, fun role h => ?_⟩
      · rw [State.circuit_modPosition, if_pos rfl, hz]
        rfl
      · by_cases e : pl.position = n <;> simp [hq, e]
      · obtain ⟨own, keeps⟩ := Position.vacated_without pl.role q
        split
        · rcases h with h | h
          · exact keeps role h
          · obtain rfl : pl.role = role := congrArg Place.role (Option.some.inj h)
            exact own
        · rename_i ne
          refine h.resolve_right fun e => ne ?_
          rw [Option.some.inj e]
    · refine ⟨z, q, ?_, rfl, hq, fun role h => h.resolve_right fun e => slot ?_⟩
      · rw [State.circuit_modPosition, if_neg slot, hz]
      · rw [Option.some.inj e]

theorem State.foldl_unname (l : List LaneId) (s : State) : ∃ sl, l.foldl State.unname s = { s with slots := sl }
    ∧ ∀ d z n q, s.circuit d = some z → z.positions[n]? = some q →
      (l.foldl State.unname s).Unnamed d z n q fun role => ∃ i ∈ l, (s.lane i).place = some ⟨d, role, n⟩ := by
  induction l generalizing s with
  | nil =>
    refine ⟨s.slots, rfl, fun d z n q hz hq => ⟨z, q, hz, rfl, hq, fun role h => h.resolve_right ?_⟩⟩
    rintro ⟨_, none, _⟩
    cases none
  | cons i l ih =>
    obtain ⟨sl, e⟩ : ∃ sl, s.unname i = { s with slots := sl } := by
      unfold State.unname
      split
      · exact ⟨_, rfl⟩
      · exact s.modCircuit_eq _ _
    obtain ⟨sl', e', later⟩ := ih (s.unname i)
    have lane (j) : (s.unname i).lane j = s.lane j := by rw [e]; rfl
    refine ⟨sl', by rw [List.foldl_cons, e', e], fun d z n q hz hq => ?_⟩
    obtain ⟨z1, q1, hz1, st1, hq1, v1⟩ := State.unnamed_unname hz hq i
    obtain ⟨z2, q2, hz2, st2, hq2, v2⟩ := later d z1 n q1 hz1 hq1
    refine ⟨z2, q2, hz2, st2.trans st1, hq2, fun role h => v2 role ?_⟩
    rcases h with h | ⟨j, mem, place⟩
    · exact .inl (v1 role (.inl h))
    · rcases List.mem_cons.mp mem with rfl | mem
      · exact .inl (v1 role (.inr place))
      · exact .inr ⟨j, mem, by rw [lane]; exact place⟩

/-! ### Lanes taken by name (R7, R82) -/

/-- R7, R82: a lane that has been taken into a circuit in TRAINING. -/
def Lane.named (p : Params) (pl : Place) (l : Lane) : Lane :=
  { l.enter .training with place := some pl, peerTrained := false, training := some (freshRecord p l 1) }

theorem State.takeNamed_eq (s : State) (i : LaneId) (pl : Place) : ∃ ls q g,
    s.takeNamed i pl = { s with
      lanes := ls, pool := s.pool.filter fun j => decide (j ≠ i), dwellQueue := q,
      scratch := { s.scratch with grant := g } }
    ∧ ∀ j, ls.get j = if j = i then (s.lane i).named s.params pl else s.lane j := by
  let t := (s.takeLane i .training pl).modLane i fun l => { l with training := some (freshRecord s.params l 1) }
  have lane (j) : t.lane j = if j = i then (s.lane i).named s.params pl else s.lane j := by
    rw [State.lane_modLane, State.lane_takeLane, State.lane_takeLane, if_pos rfl]
    split <;> rfl
  have asked : ∃ q g, t.requestDwell i .train = { t with dwellQueue := q, scratch := { s.scratch with grant := g } } := by
    unfold State.requestDwell
    split
    · exact ⟨t.dwellQueue, s.scratch.grant, rfl⟩
    · exact ⟨_, true, rfl⟩
  obtain ⟨q, g, e⟩ := asked
  exact ⟨t.lanes, q, g, e, lane⟩

theorem List.filter_ne_filter_not_mem {α : Type} [DecidableEq α] (p : List α) (a : α) (l : List α) :
    (p.filter fun b => decide (b ≠ a)).filter (fun b => decide (b ∉ l)) = p.filter fun b => decide (b ∉ a :: l) := by
  rw [List.filter_filter]
  refine List.filter_congr fun b _ => ?_
  rw [← Bool.decide_and]
  exact decide_eq_decide.mpr (by rw [List.mem_cons, not_or, and_comm])

theorem State.foldl_takeNamed (c : SlotId) (l : List (Nat × LaneId)) (nd : (l.map Prod.snd).Nodup) (s : State) : ∃ ls q g,
    l.foldl (fun s pl => s.takeNamed pl.2 ⟨c, .current, pl.1⟩) s = { s with
      lanes := ls, pool := s.pool.filter fun j => decide (j ∉ l.map Prod.snd), dwellQueue := q,
      scratch := { s.scratch with grant := g } }
    ∧ (∀ j, j ∉ l.map Prod.snd → ls.get j = s.lane j)
    ∧ ∀ k i, (k, i) ∈ l → ls.get i = (s.lane i).named s.params ⟨c, .current, k⟩ := by
  induction l generalizing s with
  | nil => exact ⟨s.lanes, s.dwellQueue, s.scratch.grant, by simp, fun _ _ => rfl, fun _ _ m => nomatch m⟩
  | cons a l ih =>
    obtain ⟨na, nd⟩ := List.nodup_cons.mp nd
    obtain ⟨ls, q, g, e, first⟩ := s.takeNamed_eq a.2 ⟨c, .current, a.1⟩
    obtain ⟨ls', q', g', e', others, named⟩ := ih nd (s.takeNamed a.2 ⟨c, .current, a.1⟩)
    have lane (j) : (s.takeNamed a.2 ⟨c, .current, a.1⟩).lane j
        = if j = a.2 then (s.lane a.2).named s.params ⟨c, .current, a.1⟩ else s.lane j := by rw [e]; exact first j
    have params : (s.takeNamed a.2 ⟨c, .current, a.1⟩).params = s.params := by rw [e]
    refine ⟨ls', q', g', ?_, fun j no => ?_, fun k i m => ?_⟩
    · rw [List.foldl_cons, e', e]
      dsimp only
      rw [List.filter_ne_filter_not_mem]
      rfl
    · obtain ⟨ne, no⟩ := not_or.mp fun k => no (List.mem_cons.mpr k)
      rw [others j no, lane, if_neg ne]
    · rcases List.mem_cons.mp m with rfl | m
      · rw [others i na, lane, if_pos rfl]
      · have ne : i ≠ a.2 := fun e => na (e ▸ List.mem_map.mpr ⟨(k, i), m, rfl⟩)
        rw [named k i m, lane, if_neg ne, params]

theorem map_snd_numbered (l : List LaneId) : (numbered l).map Prod.snd = l :=
  List.map_snd_zip (by simp)

theorem mem_numbered {l : List LaneId} {k : Nat} {i : LaneId} (h : l[k]? = some i) : (k, i) ∈ numbered l := by
  obtain ⟨lt, _⟩ := List.getElem?_eq_some_iff.mp h
  refine List.mem_of_getElem? (i := k) ?_
  rw [numbered, List.getElem?_zip_eq_some]
  exact ⟨by simp [lt], h⟩

/-! ### The checks (R33, R34) -/

theorem nodup_of_setupIn {far near rw mw : Byte} {pairs : List (Byte × Byte)} {m : SetupIn}
    (h : setupIn far near rw mw pairs = some m) : m.lanes.Nodup := by
  unfold setupIn at h
  split at h
  · split at h
    · rename_i ok
      obtain rfl := Option.some.inj h
      obtain ⟨-, -, -, nodup, -⟩ := ok
      exact nodup
    · cases h
  · cases h

theorem State.setupRefusal_none {s : State} {m : SetupIn} {c : SlotId} (present : (s.port m.near).link ≠ .absent)
    (load : (s.circuitsOf m.near).length + (s.waitingOf m.near).length < 4)
    (hosts : m.lanes.length ≤ (s.freeHostLanes m.near).length) (vacant : s.vacantSlot = some c)
    (open_ : ∀ i ∈ m.lanes, (s.lane i).state = .free ∨ (s.lane i).state = .claimed ∧ s.side = .b) :
    s.setupRefusal m = none := by
  have here : (s.port m.near).present ≠ false := by simpa [Port.present] using present
  have few : ¬4 ≤ s.portLoad m.near := Nat.not_le.mpr load
  have others : s.otherLanes m.lanes = [] := by
    refine List.filter_eq_nil_iff.mpr fun i mem => ?_
    rcases open_ i mem with e | ⟨e, -⟩ <;> simp [e]
  have claimed : ¬(s.side = .a ∧ s.claimedLanes m.lanes ≠ []) := by
    rintro ⟨a, some⟩
    refine some (List.filter_eq_nil_iff.mpr fun i mem => ?_)
    rcases open_ i mem with e | ⟨-, b⟩
    · simp [e]
    · rw [a] at b
      cases b
  unfold State.setupRefusal
  rw [if_neg here, if_neg few, if_neg (Nat.not_lt.mpr hosts), if_neg (by simp [vacant]), if_neg (by simp [others]),
    if_neg claimed]

/-! ### The circuit (R35) -/

theorem map_newPositions {hosts : List HostLane} {lanes : List LaneId} (h : hosts.length = lanes.length) :
    (newPositions hosts lanes).map (·.current) = lanes.map some
      ∧ (newPositions hosts lanes).map (·.hostLane) = hosts := by
  unfold newPositions
  rw [List.map_map, List.map_map]
  have second := List.map_snd_zip (l₁ := hosts) (l₂ := lanes) (by omega)
  have first := List.map_fst_zip (l₁ := hosts) (l₂ := lanes) (by omega)
  refine ⟨?_, first⟩
  conv_rhs => rw [← second, List.map_map]
  rfl

/-- R35: the record of an accepted SETUP. -/
def answering (s : State) (g : Tag) (m : SetupIn) (cls : Cls) (reqWidth minWidth : Nat) : Circuit :=
  { state := .training, role := .answer, tag := g, answerSlot := none, near := m.near, far := m.far, cls := cls,
    reqWidth := reqWidth, minWidth := minWidth, reqTag := none,
    positions := newPositions ((s.freeHostLanes m.near).take m.lanes.length) m.lanes,
    repairCount := 0, closeReason := none, everUp := false }

/-- R34, R35, R82: what an accepted SETUP does, up to the end of its event. -/
theorem State.acceptSetup_eq {s : State} {m : SetupIn} (nd : m.lanes.Nodup) (can : s.CanSend)
    (v : s.scratch.overflow = false) (c : SlotId) (g : Tag) (cls : Cls) (reqWidth minWidth : Nat) : ∃ sl ls q k,
    s.acceptSetup c g m cls reqWidth minWidth = State.sent { s with
      slots := sl, lanes := ls, pool := s.pool.filter fun j => decide (j ∉ m.lanes), dwellQueue := q,
      scratch := { s.scratch with grant := k } } (.accept g (byteOf c.val))
    ∧ (sl.get c).circuit = some (answering s g m cls reqWidth minWidth)
    ∧ (∀ d z n p, d ≠ c → s.circuit d = some z → z.positions[n]? = some p →
        State.Unnamed { s with slots := sl } d z n p fun role =>
          ∃ i ∈ s.claimedLanes m.lanes, (s.lane i).place = some ⟨d, role, n⟩)
    ∧ ∀ n i, m.lanes[n]? = some i → ls.get i = (s.lane i).named s.params ⟨c, .current, n⟩ := by
  obtain ⟨sl, e, unnamed⟩ := State.foldl_unname (s.claimedLanes m.lanes) s
  let t := State.setCircuit { s with slots := sl } c (answering s g m cls reqWidth minWidth)
  obtain ⟨ls, q, k, e', -, named⟩ := State.foldl_takeNamed c (numbered m.lanes) (by rw [map_snd_numbered]; exact nd) t
  rw [map_snd_numbered] at e'
  refine ⟨t.slots, ls, q, k, ?_, ?_, fun d z n p ne hz hp => ?_, fun n i h => named n i (mem_numbered h)⟩
  · unfold State.acceptSetup
    dsimp only
    rw [e]
    change State.send ((numbered m.lanes).foldl (fun s pl => s.takeNamed pl.2 ⟨c, .current, pl.1⟩) t) _ = _
    rw [e']
    exact State.send_of_canSend _ _ can v
  · exact State.circuit_setCircuit_self _ c _
  · obtain ⟨z', p', hz', rest⟩ := unnamed d z n p hz hp
    refine ⟨z', p', ?_, rest⟩
    rw [e] at hz'
    exact (State.circuit_setCircuit _ c d _).trans ((if_neg ne).trans hz')

/-- Settles O44: the checks pass, and the acceptance is followed by nothing but grants. -/
theorem setupAccepted : Obligations.SetupAccepted := by
  rintro s r q a g far near cls rw mw pairs m c inOrder rfl clear side fresh content can present load hosts vacant open_
  have clear : (s.counted a).Unmarked := (s.scratch_counted a).trans clear
  have taken : exec (.setup q a g far near cls rw mw pairs) s
      = .next ((s.counted a).received.takeSetup g far near cls rw mw pairs).finish :=
    congrArg Host.Outcome.next (State.receive_inOrder inOrder a _)
  rw [taken]
  generalize s.counted a = r at *
  have passes : r.received.setupRefusal m = none := State.setupRefusal_none (s := r.received) present load hosts vacant open_
  have accepted : r.received.takeSetup g far near cls rw mw pairs
      = r.received.acceptSetup c g m cls rw.toNat mw.toNat := by
    have known : ¬(g.side = r.received.side ∨ r.received.answers g = true) := by
      rintro (e | e)
      · exact side e
      · exact Bool.false_ne_true (fresh.symm.trans e)
    have slot : r.received.vacantSlot = some c := vacant
    rw [State.takeSetup, if_neg known, content]
    dsimp only
    rw [passes, slot]
  have marks := State.scratch_received clear
  obtain ⟨sl, ls, dq, k, e, circuit, unnamed, named⟩ := State.acceptSetup_eq (s := r.received) (nodup_of_setupIn content)
    can (by rw [marks]) c g cls rw.toNat mw.toNat
  rw [accepted, e]
  have marks' : (State.sent { r.received with
      slots := sl, lanes := ls, pool := r.received.pool.filter fun j => decide (j ∉ m.lanes), dwellQueue := dq,
      scratch := { r.received.scratch with grant := k } } (.accept g (byteOf c.val))).scratch
        = { received := true, grant := k } := by
    change { r.received.scratch with grant := k } = _
    rw [marks]
  rw [State.finish_of_unserved _ (by rw [marks']) (by rw [marks']) (by rw [marks'])]
  obtain ⟨ls', dq', us, e', lane⟩ := State.ite_grant_eq (State.sent { r.received with
      slots := sl, lanes := ls, pool := r.received.pool.filter fun j => decide (j ∉ m.lanes), dwellQueue := dq,
      scratch := { r.received.scratch with grant := k } } (.accept g (byteOf c.val)))
  rw [e']
  have length : ((r.freeHostLanes m.near).take m.lanes.length).length = m.lanes.length := by simp [hosts]
  obtain ⟨current, host⟩ := map_newPositions length
  refine ⟨_, rfl, State.placed_sent r _ can.2.1, ⟨answering r.received g m cls rw.toNat mw.toNat, circuit, rfl, rfl, rfl,
    rfl, rfl, rfl, rfl, rfl, rfl, rfl, current, host⟩, fun n i h => ?_, rfl, ?_⟩
  · obtain ⟨p, b, own, -⟩ := lane i
    have own : ls'.get i = { (r.lane i).named r.params ⟨c, .current, n⟩ with preset := p, applied := b } := by
      rw [own]
      exact congrArg (fun l : Lane => { l with preset := p, applied := b }) (named n i h)
    simp only [State.lane, own]
    exact ⟨rfl, rfl, rfl, rfl, rfl⟩
  · intro i mem st pl z p place hz hp
    have ne : pl.slot ≠ c := by
      rintro rfl
      have none := List.find?_some vacant
      rw [hz] at none
      cases none
    obtain ⟨z', p', hz', state, hp', gone⟩ := unnamed pl.slot z pl.position p ne hz hp
    exact ⟨z', p', hz', state, hp', gone pl.role (.inr ⟨i, List.mem_filter.mpr ⟨mem, by simp [st]⟩, place⟩)⟩

end Sys2Proof.Machine
end

section
/-! SUPPORT. Sys2Proof/Proofs/QuarantineRelease.lean: the sweep tick that releases a lane's fence (R12, R97). -/

namespace Sys2Proof.Machine

open Sys2Proof

/-! ### The ages (R12) -/

/-- What `t` keeps of `s` where up to `n` messages have been placed and nobody has been served. -/
structure State.Ages (s t : State) (n : Nat) : Prop where
  trunk : t.trunk = s.trunk
  queue : t.queue = s.queue
  seeking : t.seeking = s.seeking
  grant : t.scratch.grant = s.scratch.grant
  loss : t.scratch.overflow = false
  sends : t.sendQueue.length ≤ s.sendQueue.length + n

/-- R12: a lane whose age reached 0: its local fence is gone, and nothing else but what the fence held. -/
structure Lane.ReleasedFrom (l l' : Lane) (pooled : Prop) : Prop where
  fence : l'.localFence = false
  age : l'.age = none
  fails : l'.failCount = l.failCount
  freed : l.state = .quarantined → l.peerFence = false → l'.state = .free ∧ pooled
  held : l.state ≠ .quarantined ∨ l.peerFence = true → l'.state = l.state

/-- R12: a local fence is released: the lane, and what stands beside it. -/
theorem State.release_spec {s : State} (v : s.scratch.overflow = false)
    (room : s.sendQueue.length < Config.sendCapacity) (i : LaneId) :
    s.Ages (s.release i) 1 ∧ (s.lane i).ReleasedFrom ((s.release i).lane i) (i ∈ (s.release i).pool)
      ∧ ∀ j, j ≠ i → (s.release i).lane j = s.lane j ∧ (j ∈ s.pool → j ∈ (s.release i).pool) := by
  let t := (s.clearLocalFence i).log .laneReleased (some i) none
    (BitVec.ofNat 16 ((s.clearLocalFence i).lane i).failCount)
  obtain ⟨-, -, trunk, queue, seeking, -, pool, -⟩ := s.clearLocalFence_rest i
  obtain ⟨marks, -⟩ := s.clearLocalFence_room i v room
  have lane (j) : t.lane j = if j = i then (s.lane i).unfenced else s.lane j := s.lane_clearLocalFence i j
  have own := (lane i).trans (if_pos rfl)
  have pool : t.pool = s.pool := pool
  have ages : s.Ages t 1 :=
    ⟨trunk, queue, seeking, congrArg Scratch.grant marks, (congrArg Scratch.overflow marks).trans v,
      s.length_sendQueue_clearLocalFence i⟩
  have released : s.release i
      = if (s.lane i).state = .quarantined ∧ (s.lane i).peerFence = false then State.freeLane .tail t i else t := by
    change (if (t.lane i).state = .quarantined ∧ (t.lane i).peerFence = false then State.freeLane .tail t i else t) = _
    rw [own]
    rfl
  rw [released]
  generalize t = u at *
  split
  · rename_i free
    have lane' := u.lane_freeLane .tail i
    have own' := (lane' i).trans (if_pos rfl)
    have pool' : (State.freeLane .tail u i).pool = (u.pool.filter fun j => decide (j ≠ i)) ++ [i] := rfl
    refine ⟨⟨ages.trunk, ages.queue, ages.seeking, ages.grant, ages.loss, ages.sends⟩, ?_, fun j ne => ⟨?_, fun mem => ?_⟩⟩
    · rw [own', own]
      refine ⟨rfl, rfl, rfl, fun _ _ => ⟨rfl, by simp [pool']⟩, fun held => ?_⟩
      rcases held with e | e
      · exact absurd free.1 e
      · exact absurd (free.2.symm.trans e) Bool.false_ne_true
    · rw [lane', if_neg ne, lane, if_neg ne]
    · simp [pool', pool, mem, ne]
  · rename_i held
    refine ⟨ages, ?_, fun j ne => ⟨by rw [lane, if_neg ne], fun mem => by rw [pool]; exact mem⟩⟩
    rw [own]
    exact ⟨rfl, rfl, rfl, fun q f => absurd ⟨q, f⟩ held, fun _ => rfl⟩

/-- R12: a lane's age is counted: the lane, and what stands beside it. -/
theorem State.ageLane_spec {s : State} (v : s.scratch.overflow = false)
    (room : s.sendQueue.length < Config.sendCapacity) (i : LaneId) :
    s.Ages (s.ageLane i) 1
      ∧ ((s.lane i).localFence = true → (s.lane i).age = some 1 →
        (s.lane i).ReleasedFrom ((s.ageLane i).lane i) (i ∈ (s.ageLane i).pool))
      ∧ ∀ j, j ≠ i → (s.ageLane i).lane j = s.lane j ∧ (j ∈ s.pool → j ∈ (s.ageLane i).pool) := by
  have stays : s.Ages s 1 := ⟨rfl, rfl, rfl, rfl, v, Nat.le_add_right _ _⟩
  unfold State.ageLane
  split
  · rename_i n fence age
    split
    · obtain ⟨ages, own, others⟩ := State.release_spec v room i
      exact ⟨ages, fun _ _ => own, others⟩
    · rename_i old
      refine ⟨⟨rfl, rfl, rfl, rfl, v, Nat.le_add_right _ _⟩, fun _ one => ?_,
        fun j ne => ⟨by rw [State.lane_modLane, if_neg ne], fun mem => mem⟩⟩
      rw [age] at one
      cases one
      exact absurd le_rfl old
  · rename_i none
    exact ⟨stays, fun fence one => absurd one (none 1 fence), fun j _ => ⟨rfl, fun mem => mem⟩⟩

theorem State.Ages.trans {s t u : State} {n m : Nat} (h : s.Ages t n) (k : t.Ages u m) : s.Ages u (n + m) :=
  ⟨k.trunk.trans h.trunk, k.queue.trans h.queue, k.seeking.trans h.seeking, k.grant.trans h.grant, k.loss, by
    have := h.sends
    have := k.sends
    omega⟩

theorem State.foldl_ageLane (l : List LaneId) (nd : l.Nodup) (s : State) (v : s.scratch.overflow = false)
    (room : s.sendQueue.length + l.length ≤ Config.sendCapacity) :
    s.Ages (l.foldl State.ageLane s) l.length
      ∧ (∀ i ∈ l, (s.lane i).localFence = true → (s.lane i).age = some 1 →
        (s.lane i).ReleasedFrom ((l.foldl State.ageLane s).lane i) (i ∈ (l.foldl State.ageLane s).pool))
      ∧ ∀ j, j ∉ l → (l.foldl State.ageLane s).lane j = s.lane j ∧ (j ∈ s.pool → j ∈ (l.foldl State.ageLane s).pool) := by
  induction l generalizing s with
  | nil =>
    exact ⟨⟨rfl, rfl, rfl, rfl, v, Nat.le_add_right _ _⟩, fun _ m => (nomatch m), fun _ _ => ⟨rfl, fun mem => mem⟩⟩
  | cons a l ih =>
    obtain ⟨na, nd⟩ := List.nodup_cons.mp nd
    have room : s.sendQueue.length + (l.length + 1) ≤ Config.sendCapacity := room
    obtain ⟨ages, own, others⟩ := State.ageLane_spec v (show s.sendQueue.length < Config.sendCapacity by omega) a
    have sends := ages.sends
    obtain ⟨ages', owns, others'⟩ := ih nd (s.ageLane a) ages.loss (by omega)
    rw [List.foldl_cons]
    refine ⟨?_, fun i mem fence one => ?_, fun j no => ?_⟩
    · have both := ages.trans ages'
      rwa [Nat.add_comm] at both
    · by_cases e : i = a
      · subst e
        obtain ⟨lane, pool⟩ := others' i na
        have here := own fence one
        rw [lane]
        exact ⟨here.fence, here.age, here.fails, fun q f => ⟨(here.freed q f).1, pool (here.freed q f).2⟩, here.held⟩
      · have later := (List.mem_cons.mp mem).resolve_left e
        obtain ⟨lane, -⟩ := others i e
        rw [← lane] at fence one ⊢
        exact owns i later fence one
    · obtain ⟨ne, no⟩ := not_or.mp fun k => no (List.mem_cons.mpr k)
      obtain ⟨lane, pool⟩ := others j ne
      obtain ⟨lane', pool'⟩ := others' j no
      exact ⟨lane'.trans lane, fun mem => pool' (pool mem)⟩

/-! ### The rest of the tick (R97, R98) -/

/-- R98: a lane's record where its request still waited. -/
def Lane.missesSweep (l : Lane) : Lane := { l with missed := satSucc 255 l.missed }

/-- R98: the health requests touch no lane but for its missed sweeps. -/
theorem State.healthRequest_eq (s : State) (i : LaneId) : ∃ ls q g,
    s.healthRequest i = { s with lanes := ls, dwellQueue := q, scratch := { s.scratch with grant := g } }
    ∧ ∀ j, ∃ m, ls.get j = { s.lane j with missed := m } := by
  unfold State.healthRequest
  split
  · have lane (j) : (s.modLane i Lane.missesSweep).lanes.get j = if j = i then (s.lane i).missesSweep else s.lane j :=
      s.lane_modLane i j Lane.missesSweep
    refine ⟨(s.modLane i Lane.missesSweep).lanes, s.dwellQueue, s.scratch.grant, rfl, fun j => ?_⟩
    rw [lane]
    split
    · rename_i e
      exact ⟨_, by rw [e]; rfl⟩
    · exact ⟨(s.lane j).missed, rfl⟩
  · rename_i fresh
    refine ⟨s.lanes, s.dwellQueue ++ [Dwell.mk i .health (s.lane i).run], true, ?_, fun j => ⟨(s.lane j).missed, rfl⟩⟩
    exact if_neg fresh

theorem State.foldl_healthRequest (l : List LaneId) (s : State) : ∃ ls q g,
    l.foldl State.healthRequest s = { s with lanes := ls, dwellQueue := q, scratch := { s.scratch with grant := g } }
    ∧ ∀ j, ∃ m, ls.get j = { s.lane j with missed := m } := by
  induction l generalizing s with
  | nil => exact ⟨s.lanes, s.dwellQueue, s.scratch.grant, rfl, fun j => ⟨(s.lane j).missed, rfl⟩⟩
  | cons a l ih =>
    obtain ⟨ls, q, g, e, first⟩ := s.healthRequest_eq a
    obtain ⟨ls', q', g', e', later⟩ := ih (s.healthRequest a)
    refine ⟨ls', q', g', by rw [List.foldl_cons, e', e], fun j => ?_⟩
    obtain ⟨m, hm⟩ := later j
    obtain ⟨k, hk⟩ := first j
    have lane : (s.healthRequest a).lane j = ls.get j := by rw [e]; rfl
    exact ⟨m, by rw [hm, lane, hk]⟩

theorem State.sweep_eq (s : State) : ∃ ls q g r n,
    s.sweep = { s with
      lanes := ls, dwellQueue := q, scratch := { s.scratch with grant := g }, ring := r, nextEntry := n }
    ∧ ∀ j, ∃ m, ls.get j = { s.lane j with missed := m } := by
  obtain ⟨ls, q, g, e, lanes⟩ := State.foldl_healthRequest s.activeLanes s
  unfold State.sweep
  dsimp only
  split
  · exact ⟨ls, q, g, s.ring, s.nextEntry, e, lanes⟩
  · exact ⟨ls, q, g, _, _, by rw [e]; rfl, lanes⟩

/-- R61: no patience is counted where no entry waits. -/
theorem State.countPatience_of_nobody {s : State} (h : ∀ e ∈ s.queue, e.slot ≠ none) : s.countPatience = s := by
  have ticked : s.queue.map Entry.tick = s.queue := by
    refine (List.map_congr_left fun e m => ?_).trans (List.map_id _)
    exact if_neg (h e m)
  have none : ∀ e ∈ s.queue, ¬e.expired = true := fun e m => by simp [Entry.expired, h e m]
  unfold State.countPatience
  dsimp only
  rw [ticked, List.filter_eq_nil_iff.mpr none]
  refine if_neg ?_
  rw [List.any_eq_true]
  rintro ⟨e, m, x⟩
  exact none e m x

/-- The end of an event while nobody waits: a grant sets a lane's equalizer, and nothing else of a lane or the pool. -/
theorem State.NobodyWaits.finish_keeps {s : State} (h : s.NobodyWaits) (loss : s.scratch.overflow = false) :
    s.finish.pool = s.pool ∧ ∀ i, ∃ p a, s.finish.lane i = { s.lane i with preset := p, applied := a } := by
  obtain ⟨ls, q, us, e, granted⟩ := s.ite_grant_eq
  have ended : s.finish = _ := (State.finish_of_quiet s h loss).trans e
  rw [ended]
  refine ⟨rfl, fun i => ?_⟩
  obtain ⟨p, a, own, -⟩ := granted i
  exact ⟨p, a, own⟩

/-- R97: what a sweep tick leaves of a lane and the pool, while nobody waits, behind the ages. -/
theorem State.swept_of_nobody {s : State} (nobody : s.sweepBegin.countAges.NobodyWaits)
    (loss : s.sweepBegin.countAges.scratch.overflow = false) : s.swept.pool = s.sweepBegin.countAges.pool
      ∧ ∀ i, ∃ m p a, s.swept.lane i = { s.sweepBegin.countAges.lane i with missed := m, preset := p, applied := a } := by
  obtain ⟨seeking, queue⟩ := nobody
  unfold State.swept State.sweepReleased
  generalize s.sweepBegin.countAges = u at *
  obtain ⟨k, e, kept⟩ := State.reportGrowth_eq seeking
  have loss := kept.trans loss
  have sought : u.reportGrowth.countSeeking = { u with scratch := k } := by
    rw [e]
    unfold State.countSeeking
    rw [seeking]
    rfl
  have counted : State.countPatience { u with scratch := k } = { u with scratch := k } := State.countPatience_of_nobody queue
  obtain ⟨ls, q, g, r, n, e', lanes⟩ := State.sweep_eq { u with scratch := k }
  have nobody : u.reportGrowth.countSeeking.countPatience.sweep.NobodyWaits := by
    rw [sought, counted, e']
    exact ⟨seeking, queue⟩
  have marks : u.reportGrowth.countSeeking.countPatience.sweep.scratch.overflow = false := by
    rw [sought, counted, e']
    exact loss
  have lane (i) : u.reportGrowth.countSeeking.countPatience.sweep.lane i = ls.get i := by
    rw [sought, counted, e']
    rfl
  have pool : u.reportGrowth.countSeeking.countPatience.sweep.pool = u.pool := by
    rw [sought, counted, e']
  obtain ⟨same, granted⟩ := nobody.finish_keeps marks
  refine ⟨same.trans pool, fun i => ?_⟩
  obtain ⟨p, a, own⟩ := granted i
  obtain ⟨m, hm⟩ := lanes i
  exact ⟨m, p, a, by rw [own, lane, hm]; rfl⟩

/-- Settles O58: the tick counts the ages, and nothing that follows touches the fences. -/
theorem quarantineReleased : Obligations.QuarantineReleased := by
  intro s ms i timer up fence one nobody clear can
  have runs : s.sweepTimer.runs = true := by rw [timer]; rfl
  have tick : exec .sweepTick s = .next s.swept := congrArg Host.Outcome.next (if_pos ⟨runs, rfl⟩)
  have named : exec (.quarantineRelease i) s = .next s.swept :=
    congrArg Host.Outcome.next (if_pos ⟨runs, by simp [State.releaseNext, up, fence, one]⟩)
  have counted : s.sweepBegin.countAges = (indexes 24).foldl State.ageLane s.sweepBegin := if_pos up
  have empty : s.sweepBegin.sendQueue = [] := can.2.1
  have loss : s.sweepBegin.scratch.overflow = false := congrArg Scratch.overflow clear
  obtain ⟨ages, released, -⟩ := State.foldl_ageLane (indexes 24) (indexes_nodup 24) s.sweepBegin loss
    (by rw [empty]; decide)
  rw [← counted] at ages released
  have done := released i (mem_indexes i) fence one
  obtain ⟨pool, lane⟩ := State.swept_of_nobody (nobody.congr ages.queue ages.seeking) ages.loss
  obtain ⟨m, p, a, own⟩ := lane i
  refine ⟨_, named, tick, ?_⟩
  rw [pool, own]
  exact ⟨done.fence, done.age, done.fails, done.freed, done.held⟩

end Sys2Proof.Machine
end

section
/-! SUPPORT. Sys2Proof/Proofs/Closes.lean: CLOSE and CLOSED complete a close: the lanes, the messages, the notice and the
slot (R15, R23, R41 to R46). -/

namespace Sys2Proof.Machine

open Sys2Proof

/-! ### Lanes that leave together (R15) -/

/-- What lanes that leave touch not at all. -/
abbrev State.LeavesAlone (s t : State) : Prop :=
  t.slots = s.slots ∧ t.queue = s.queue ∧ t.seeking = s.seeking ∧ t.ports = s.ports ∧ t.params = s.params
    ∧ t.trunk = s.trunk

theorem State.foldl_leavesAlone {α : Type} {f : State → α → State} (h : ∀ (s : State) a, s.LeavesAlone (f s a)) (l : List α)
    (s : State) : s.LeavesAlone (l.foldl f s) := by
  induction l generalizing s with
  | nil => exact ⟨rfl, rfl, rfl, rfl, rfl, rfl⟩
  | cons a l ih =>
    obtain ⟨slots, queue, seeking, ports, params, trunk⟩ := ih (f s a)
    obtain ⟨slots', queue', seeking', ports', params', trunk'⟩ := h s a
    exact ⟨slots.trans slots', queue.trans queue', seeking.trans seeking', ports.trans ports', params.trans params',
      trunk.trans trunk'⟩

theorem State.leaveFenced_rest (b : Bool) (s : State) (i : LaneId) : s.LeavesAlone (State.leaveFenced b s i) := by
  unfold State.leaveFenced
  split
  · rename_i w _
    obtain ⟨-, params, trunk, queue, seeking, slots, -, -, -, ports, -⟩ := s.setLocalFence_rest i (s.ownerTag i) (.failure w)
    exact ⟨(State.quarantine_slots ..).trans slots, (State.quarantine_queue ..).trans queue,
      (State.quarantine_seeking ..).trans seeking, (State.quarantine_ports ..).trans ports,
      (State.quarantine_params ..).trans params, (State.quarantine_trunk ..).trans trunk⟩
  · dsimp only
    split <;> split <;> exact ⟨rfl, rfl, rfl, rfl, rfl, rfl⟩

theorem State.leaveAll_rest (s : State) (l : List LaneId) (b : Bool) (e : PoolEnd) : s.LeavesAlone (s.leaveAll l b e) := by
  have fenced := State.foldl_leavesAlone (State.leaveFenced_rest b) l s
  have freed (m : List LaneId) (t : State) : t.LeavesAlone (m.foldl (State.freeLane e) t) :=
    State.foldl_leavesAlone (f := State.freeLane e) (fun _ _ => ⟨rfl, rfl, rfl, rfl, rfl, rfl⟩) m t
  obtain ⟨slots, queue, seeking, ports, params, trunk⟩ := fenced
  unfold State.leaveAll
  cases e
  all_goals
    dsimp only
    obtain ⟨slots', queue', seeking', ports', params', trunk'⟩ := freed _ (l.foldl (State.leaveFenced b) s)
    exact ⟨slots'.trans slots, queue'.trans queue, seeking'.trans seeking, ports'.trans ports, params'.trans params,
      trunk'.trans trunk⟩

/-- R15 steps 1 and 3: the record of a lane that leaves with nothing presumed of its peer: fenced for its failure reason,
QUARANTINED where a fence holds it, and otherwise as it was. -/
def Lane.leaving (p : Params) (l : Lane) : Lane :=
  if l.failure ≠ none then (l.fenceLocally p).clearPlace.enter .quarantined
  else if l.localFence = true ∨ l.peerFence = true then l.clearPlace.enter .quarantined
  else l

/-- R15 step 1: the FENCE for a lane that leaves with a failure reason. -/
def Lane.fenceMsg (i : LaneId) (l : Lane) : Option Msg := l.failure.map fun w => .fence (byteOf i.val) (.failure w)

/-- What `t` is where, from `s`, the lanes `l` have been fenced or QUARANTINED as they leave. -/
structure State.FencedAll (s t : State) (l : List LaneId) : Prop where
  lane : ∀ j, t.lane j = if j ∈ l then (s.lane j).leaving s.params else s.lane j
  pool : t.pool = s.pool
  placed : t.placed = s.placed ++ l.filterMap fun i => (s.lane i).fenceMsg i
  marks : t.scratch = s.scratch

theorem State.fencedAll_leaveFenced {s : State} {i : LaneId} (out : i ∉ s.pool) (v : s.scratch.overflow = false) {n : Nat}
    (room : s.Room (n + 1)) : s.FencedAll (State.leaveFenced false s i) [i] ∧ (State.leaveFenced false s i).Room n := by
  cases why : (s.lane i).failure with
  | none =>
    have left : State.leaveFenced false s i
        = if (s.lane i).localFence = true ∨ (s.lane i).peerFence = true then s.quarantine i else s := by
      simp [State.leaveFenced, why]
    have silent : s.placed = s.placed ++ [i].filterMap fun i => (s.lane i).fenceMsg i := by simp [Lane.fenceMsg, why]
    rw [left]
    split
    · rename_i held
      refine ⟨⟨fun j => ?_, ?_, silent, rfl⟩, room.mono (Nat.le_succ n)⟩
      · rw [State.lane_quarantine]
        by_cases e : j = i
        · subst e
          simp [Lane.leaving, why, held]
        · simp [e]
      · rw [State.pool_quarantine, List.filter_ne_self out]
    · rename_i clear
      refine ⟨⟨fun j => ?_, rfl, silent, rfl⟩, room.mono (Nat.le_succ n)⟩
      by_cases e : j = i
      · subst e
        simp [Lane.leaving, why, clear]
      · simp [e]
  | some w =>
    have left : State.leaveFenced false s i = (s.setLocalFence i (s.ownerTag i) (.failure w)).quarantine i := by
      simp [State.leaveFenced, why]
    obtain ⟨marks, placed⟩ := s.setLocalFence_room i (s.ownerTag i) (.failure w) v room.lt
    obtain ⟨-, -, -, -, -, -, pool, -⟩ := s.setLocalFence_rest i (s.ownerTag i) (.failure w)
    rw [left]
    obtain ⟨trunk, sends⟩ := room.setLocalFence i (s.ownerTag i) (.failure w)
    refine ⟨⟨fun j => ?_, ?_, ?_, (State.quarantine_scratch ..).trans marks⟩, (State.quarantine_trunk ..).trans trunk,
      by rw [State.quarantine_sendQueue]; exact sends⟩
    · rw [State.lane_quarantine, State.lane_setLocalFence, State.lane_setLocalFence]
      by_cases e : j = i
      · subst e
        simp [Lane.leaving, why]
      · simp [e]
    · rw [State.pool_quarantine, pool, List.filter_ne_self out]
    · rw [State.placed_quarantine, placed, if_pos room.1]
      simp [Lane.fenceMsg, why, FenceCause.reason]

theorem State.fencedAll_foldl (l : List LaneId) (nd : l.Nodup) (s : State) (out : ∀ i ∈ l, i ∉ s.pool)
    (v : s.scratch.overflow = false) {n : Nat} (room : s.Room (l.length + n)) :
    s.FencedAll (l.foldl (State.leaveFenced false) s) l ∧ (l.foldl (State.leaveFenced false) s).Room n := by
  induction l generalizing s with
  | nil => exact ⟨⟨fun _ => by simp, rfl, by simp, rfl⟩, by simpa using room⟩
  | cons a l ih =>
    obtain ⟨na, nd⟩ := List.nodup_cons.mp nd
    have room : s.Room (l.length + n + 1) := by simpa [Nat.add_right_comm] using room
    obtain ⟨first, room⟩ := State.fencedAll_leaveFenced (out a List.mem_cons_self) v room
    obtain ⟨-, -, -, -, params, -⟩ := State.leaveFenced_rest false s a
    have lane (j) (ne : j ≠ a) : (State.leaveFenced false s a).lane j = s.lane j := by
      rw [first.lane, if_neg (by simpa using ne)]
    obtain ⟨later, room⟩ := ih nd (State.leaveFenced false s a)
      (fun i m => by rw [first.pool]; exact out i (List.mem_cons_of_mem a m)) (by rw [first.marks]; exact v) room
    refine ⟨⟨fun j => ?_, later.pool.trans first.pool, ?_, later.marks.trans first.marks⟩, room⟩
    · rw [List.foldl_cons, later.lane, params]
      by_cases e : j = a
      · subst e
        rw [if_neg na, first.lane]
        simp
      · rw [lane j e]
        simp [e]
    · have same : (l.filterMap fun i => ((State.leaveFenced false s a).lane i).fenceMsg i)
          = l.filterMap fun i => (s.lane i).fenceMsg i := by
        refine List.filterMap_congr fun i m => ?_
        rw [lane i fun e => na (e ▸ m)]
      rw [List.foldl_cons, later.placed, first.placed, same, List.append_assoc, ← List.filterMap_append]
      rfl

/-- R8, R9, R15: the record of a lane that becomes FREE. -/
def Lane.freed (l : Lane) : Lane := { (l.enter .free).clearPlace with failure := none }

/-- Where lanes join the pool at an end of it, in the order given (R8, R9). -/
def poolWith (e : PoolEnd) (pool l : List LaneId) : List LaneId :=
  match e with
  | .tail => pool ++ l
  | .head => l ++ pool

/-- What `t` is where, from `s`, the lanes `l` have joined the pool at its end `e`. -/
structure State.FreedAll (s t : State) (e : PoolEnd) (l : List LaneId) : Prop where
  lane : ∀ j, t.lane j = if j ∈ l then (s.lane j).freed else s.lane j
  pool : t.pool = poolWith e s.pool l
  placed : t.placed = s.placed
  sends : t.sendQueue = s.sendQueue
  marks : ∃ b, t.scratch = { s.scratch with grown := b }

theorem State.freedAll_tail (l : List LaneId) (nd : l.Nodup) (s : State) (out : ∀ i ∈ l, i ∉ s.pool) :
    s.FreedAll (l.foldl (State.freeLane .tail) s) .tail l := by
  induction l generalizing s with
  | nil => exact ⟨fun _ => by simp, by simp [poolWith], rfl, rfl, s.scratch.grown, rfl⟩
  | cons a l ih =>
    obtain ⟨na, nd⟩ := List.nodup_cons.mp nd
    have pool : (State.freeLane .tail s a).pool = s.pool ++ [a] := by
      rw [State.pool_freeLane]
      exact congrArg (· ++ [a]) (List.filter_ne_self (out a List.mem_cons_self))
    have later := ih nd (State.freeLane .tail s a) fun i m => by
      rw [pool, List.mem_append, not_or]
      exact ⟨out i (List.mem_cons_of_mem a m), fun e => na (List.mem_singleton.mp e ▸ m)⟩
    obtain ⟨b, marks⟩ := later.marks
    refine ⟨fun j => ?_, ?_, later.placed, later.sends, b, marks⟩
    · rw [List.foldl_cons, later.lane, State.lane_freeLane]
      by_cases e : j = a
      · subst e
        simp [na, Lane.freed]
      · simp [e]
    · rw [List.foldl_cons, later.pool, pool]
      simp [poolWith]

theorem State.freedAll_head (l : List LaneId) (nd : l.Nodup) (s : State) (out : ∀ i ∈ l, i ∉ s.pool) :
    s.FreedAll (l.foldr (fun i s => State.freeLane .head s i) s) .head l := by
  induction l with
  | nil => exact ⟨fun _ => by simp, by simp [poolWith], rfl, rfl, s.scratch.grown, rfl⟩
  | cons a l ih =>
    obtain ⟨na, nd⟩ := List.nodup_cons.mp nd
    have before := ih nd fun i m => out i (List.mem_cons_of_mem a m)
    obtain ⟨b, marks⟩ := before.marks
    have absent : a ∉ l ++ s.pool := by simp [na, out a List.mem_cons_self]
    have pool : (l.foldr (fun i s => State.freeLane .head s i) s).pool = l ++ s.pool := before.pool
    refine ⟨fun j => ?_, ?_, before.placed, before.sends, true, by rw [List.foldr_cons, State.scratch_freeLane, marks]⟩
    · rw [List.foldr_cons, State.lane_freeLane, before.lane, before.lane]
      by_cases e : j = a
      · subst e
        simp [na, Lane.freed]
      · simp [e]
    · rw [List.foldr_cons, State.pool_freeLane, pool, List.filter_ne_self absent]
      rfl

theorem State.leaveAll_eq_freed (s : State) (l : List LaneId) (b : Bool) (e : PoolEnd) : s.leaveAll l b e =
    match e with
    | .tail => (l.filter fun i => ((l.foldl (State.leaveFenced b) s).lane i).state != .quarantined).foldl
        (State.freeLane .tail) (l.foldl (State.leaveFenced b) s)
    | .head => (l.filter fun i => ((l.foldl (State.leaveFenced b) s).lane i).state != .quarantined).foldr
        (fun i s => State.freeLane .head s i) (l.foldl (State.leaveFenced b) s) := by
  cases e
  · exact List.foldl_reverse ..
  · rfl

theorem Lane.leaving_of_clean {l : Lane} (h : l.Clean) (p : Params) : l.leaving p = l := by
  obtain ⟨none, fence, peer⟩ := h
  simp [Lane.leaving, none, fence, peer]

theorem Lane.leaving_of_held {l : Lane} (h : ¬l.Clean) (p : Params) :
    (l.leaving p).state = .quarantined ∧ (l.leaving p).place = none ∧ (l.leaving p).peerTrained = false
      ∧ (l.failure ≠ none → (l.leaving p).localFence = true ∧ (l.leaving p).failCount = min 255 (l.failCount + 1)) := by
  unfold Lane.leaving
  split
  · exact ⟨rfl, rfl, rfl, fun _ => ⟨rfl, rfl⟩⟩
  · rename_i sound
    split
    · exact ⟨rfl, rfl, rfl, fun failed => absurd failed sound⟩
    · rename_i clear
      exact absurd ⟨not_not.mp sound, by simpa using fun e => clear (.inl e), by simpa using fun e => clear (.inr e)⟩ h

/-- R15: the record of a lane that has left. -/
def Lane.left (p : Params) (l : Lane) : Lane := if l.Clean then l.freed else l.leaving p

/-- What `t` is where, from `s`, the lanes `l` have left together, and those without a fence joined the pool at `e`. -/
structure State.LeftAll (s t : State) (l : List LaneId) (e : PoolEnd) : Prop where
  lane : ∀ i ∈ l, t.lane i = (s.lane i).left s.params
  pool : t.pool = poolWith e s.pool (l.filter fun i => decide (s.lane i).Clean)
  placed : t.placed = s.placed ++ l.filterMap fun i => (s.lane i).fenceMsg i
  marks : ∃ b, t.scratch = { s.scratch with grown := b }

/-- R15: lanes that are not in the pool leave a circuit. -/
theorem State.leftAll_leaveAll {s : State} {l : List LaneId} (nd : l.Nodup) (out : ∀ i ∈ l, i ∉ s.pool)
    (unheld : ∀ i ∈ l, (s.lane i).state ≠ .quarantined) (v : s.scratch.overflow = false) {n : Nat}
    (room : s.Room (l.length + n)) (e : PoolEnd) :
    s.LeftAll (s.leaveAll l false e) l e ∧ (s.leaveAll l false e).Room n := by
  obtain ⟨fenced, room⟩ := State.fencedAll_foldl l nd s out v room
  have clean : (l.filter fun i => ((l.foldl (State.leaveFenced false) s).lane i).state != .quarantined)
      = l.filter fun i => decide (s.lane i).Clean := by
    refine List.filter_congr fun i m => ?_
    rw [fenced.lane, if_pos m]
    by_cases c : (s.lane i).Clean
    · rw [Lane.leaving_of_clean c, decide_eq_true c]
      simpa using unheld i m
    · rw [(Lane.leaving_of_held c s.params).1, decide_eq_false c]
      rfl
  have freed : (l.foldl (State.leaveFenced false) s).FreedAll (s.leaveAll l false e) e
      (l.filter fun i => decide (s.lane i).Clean) := by
    have out' : ∀ i ∈ l.filter fun i => decide (s.lane i).Clean, i ∉ (l.foldl (State.leaveFenced false) s).pool := by
      intro i m
      rw [fenced.pool]
      exact out i (List.mem_filter.mp m).1
    rw [State.leaveAll_eq_freed, clean]
    cases e
    · exact State.freedAll_head _ (nd.filter _) _ out'
    · exact State.freedAll_tail _ (nd.filter _) _ out'
  obtain ⟨b, marks⟩ := freed.marks
  obtain ⟨-, -, -, -, -, trunk⟩ := s.leaveAll_rest l false e
  obtain ⟨-, -, -, -, -, trunk'⟩ := State.foldl_leavesAlone (State.leaveFenced_rest false) l s
  refine ⟨⟨fun i m => ?_, by rw [freed.pool, fenced.pool], freed.placed.trans fenced.placed, b,
    by rw [marks, fenced.marks]⟩, ?_, by rw [freed.sends]; exact room.2⟩
  · rw [freed.lane, fenced.lane, if_pos m, Lane.left]
    have member : (i ∈ l.filter fun i => decide (s.lane i).Clean) ↔ (s.lane i).Clean :=
      List.mem_filter.trans ⟨fun h => of_decide_eq_true h.2, fun c => ⟨m, decide_eq_true c⟩⟩
    by_cases c : (s.lane i).Clean
    · rw [if_pos (member.mpr c), if_pos c, Lane.leaving_of_clean c]
    · rw [if_neg fun k => c (member.mp k), if_neg c]
  · rw [trunk, ← trunk']
    exact room.1

theorem Lane.left_spec (p : Params) (l : Lane) :
    (l.left p).place = none ∧ (l.left p).peerTrained = false
      ∧ (l.left p).state = (if l.Clean then .free else .quarantined)
      ∧ (l.failure ≠ none → (l.left p).localFence = true ∧ (l.left p).failCount = min 255 (l.failCount + 1)) := by
  unfold Lane.left
  split
  · rename_i c
    exact ⟨rfl, rfl, rfl, fun failed => absurd c.1 failed⟩
  · rename_i c
    obtain ⟨state, place, peer, fenced⟩ := Lane.leaving_of_held c p
    exact ⟨place, peer, state, fenced⟩

end Sys2Proof.Machine
end

section
/-! SUPPORT. Sys2Proof/Proofs/CloseEnds.lean: the end of a circuit by CLOSE or CLOSED, with its messages, notice and slot
(R23, R41 to R46, R64). -/

namespace Sys2Proof.Machine

open Sys2Proof

/-! ### The slot (R23) -/

/-- What `u` is where, from `s`, the slot `c` has become VACANT: no request waits that did not wait before. -/
structure State.Vacates (s u : State) (c : SlotId) : Prop where
  slot : u.slots.get c = ⟨(s.slots.get c).gen + 1, none⟩
  queue : ∀ e ∈ u.queue, e ∈ s.queue
  seeking : s.seeking = [] → u.seeking = []

theorem State.Vacates.nobody {s u : State} {c : SlotId} (h : s.Vacates u c) (nobody : s.NobodyWaits) : u.NobodyWaits :=
  ⟨h.seeking nobody.1, fun e m => nobody.2 e (h.queue e m)⟩

theorem State.Vacates.send {s u : State} {c : SlotId} (h : s.Vacates u c) (m : Msg) : s.Vacates (u.send m) c := by
  obtain ⟨q, o, k, f, b, v, e⟩ := u.send_eq m
  rw [e]
  exact ⟨h.slot, h.queue, h.seeking⟩

theorem State.dropEntries_eq (s : State) (leaves : Entry → Bool) : ∃ q k,
    s.dropEntries leaves = { s with queue := q, scratch := { s.scratch with scan := k } }
    ∧ ∀ e ∈ q, e ∈ s.queue ∧ leaves e = false := by
  unfold State.dropEntries
  split
  · refine ⟨_, true, rfl, fun e m => ?_⟩
    obtain ⟨mem, stays⟩ := List.mem_filter.mp m
    exact ⟨mem, by simpa using stays⟩
  · rename_i none
    refine ⟨s.queue, s.scratch.scan, rfl, fun e m => ⟨m, ?_⟩⟩
    rw [List.any_eq_true] at none
    exact Bool.eq_false_iff.mpr fun leaves => none ⟨e, m, leaves⟩

theorem State.Vacates.dropEntryOfSlot {s u : State} {c : SlotId} (h : s.Vacates u c) (d : SlotId) :
    s.Vacates (u.dropEntryOfSlot d) c := by
  obtain ⟨q, k, e, rest⟩ := u.dropEntries_eq fun e => decide (e.slot = some d)
  rw [State.dropEntryOfSlot, e]
  exact ⟨h.slot, fun e m => h.queue e (rest e m).1, h.seeking⟩

/-- R23: the last act at the end of a circuit: its near port is told, and its slot becomes VACANT. -/
theorem State.vacates_told {s w : State} (slots : w.slots = s.slots) (queue : w.queue = s.queue)
    (seeking : w.seeking = s.seeking) (c : SlotId) (h : PortId) (n : Option Notice) :
    s.Vacates ((w.notifyOpt h n).vacate c) c := by
  obtain ⟨ps, e⟩ := w.notifyOpt_eq h n
  rw [e]
  refine ⟨?_, fun e m => ?_, fun none => ?_⟩
  · rw [State.slots_vacate, if_pos rfl, ← slots]
  · rw [← queue]
    exact m
  · change w.seeking.filter _ = []
    rw [seeking, none]
    rfl

theorem State.completeClose_of {s : State} {c : SlotId} {x : Circuit} (h : s.circuit c = some x) : s.completeClose c =
    ((s.leaveAll x.lanes false (closeEnd x.closeReason)).notifyOpt x.near (x.closeReason.bind (sentNotice c x))).vacate
      c := by
  rw [State.completeClose, h]

theorem State.endByPeer_of {s : State} {c : SlotId} {x : Circuit} (h : s.circuit c = some x) (why : CloseReason) :
    s.endByPeer c why = ((((s.leaveAll x.lanes false .tail).send (.closed x.tag)).notifyOpt x.near
      (receivedNotice c x why)).vacate c) := by
  rw [State.endByPeer, h]

theorem State.vacates_completeClose {s : State} {c : SlotId} {x : Circuit} (h : s.circuit c = some x) :
    s.Vacates (s.completeClose c) c := by
  obtain ⟨slots, queue, seeking, -⟩ := s.leaveAll_rest x.lanes false (closeEnd x.closeReason)
  rw [State.completeClose_of h]
  exact State.vacates_told slots queue seeking c _ _

theorem State.vacates_endByPeer {s : State} {c : SlotId} {x : Circuit} (h : s.circuit c = some x) (why : CloseReason) :
    s.Vacates (s.endByPeer c why) c := by
  obtain ⟨slots, queue, seeking, -⟩ := s.leaveAll_rest x.lanes false .tail
  obtain ⟨q, o, k, f, b, v, e⟩ := (s.leaveAll x.lanes false .tail).send_eq (.closed x.tag)
  rw [State.endByPeer_of h]
  exact State.vacates_told (by rw [e]; exact slots) (by rw [e]; exact queue) (by rw [e]; exact seeking) c _ _

/-- R23, R144: a slot that an event has made VACANT keeps its generation to the event's end, even where the trunk is
lost. -/
theorem State.NobodyWaits.slot_finish {s : State} (h : s.NobodyWaits) {c : SlotId}
    (vacant : (s.slots.get c).circuit = none) : s.finish.slots.get c = s.slots.get c := by
  have lossKeeps (t : State) (e : t.slots = s.slots) : t.overflowLoss.slots.get c = s.slots.get c := by
    unfold State.overflowLoss
    split
    · obtain ⟨ls, q, sl, ps, sc, r, n, lost, -, slots, -⟩ := t.goLost_eq .sendOverflow
      rw [lost]
      refine (slots c).trans ?_
      rw [e, Slot.afterLoss, vacant]
      exact congrArg (Slot.mk _) vacant.symm
    · rw [e]
  obtain ⟨k, e, -⟩ := State.reportGrowth_eq h.1
  have scan : State.scan { s with scratch := k } = { s with scratch := k } := State.scan_of_nobody _ h.2
  unfold State.finish
  rw [e]
  dsimp only
  rw [scan, ite_self]
  split
  · obtain ⟨ls, q, us, granted, -⟩ := State.grant_eq { s with scratch := k }
    rw [granted]
    exact lossKeeps _ rfl
  · exact lossKeeps _ rfl

/-! ### The lanes, the messages and the notice (R15, R41, R42, R46) -/

/-- R41, R42, R46: the notice at the end of a circuit, by who closed it. -/
def endNotice (c : SlotId) (x : Circuit) (why : CloseReason) : Option Notice :=
  if x.state = .closing then x.closeReason.bind (sentNotice c x) else receivedNotice c x why

/-- R8, R9, R42: where the lanes of a circuit that ends join the pool. -/
def Circuit.poolEnd (x : Circuit) : PoolEnd := if x.state = .closing then closeEnd x.closeReason else .tail

/-- What `u` is where, from `s`, the circuit `x` has ended, `back` has been placed behind its lanes' fences, and its near
port has been told `told`. -/
structure State.Ended (s u : State) (x : Circuit) (told : Option Notice) (e : PoolEnd) (back : List Msg) : Prop where
  lane : ∀ i ∈ x.lanes, u.lane i = (s.lane i).left s.params
  pool : u.pool = poolWith e s.pool (x.lanes.filter fun i => decide (s.lane i).Clean)
  placed : u.placed = s.placed ++ (x.lanes.filterMap fun i => (s.lane i).fenceMsg i) ++ back
  notices : (s.port x.near).link ≠ .absent →
    (u.port x.near).notices = told.elim (s.port x.near).notices (queueNotice (s.port x.near).notices)
  loss : u.scratch.overflow = false
  grant : u.scratch.grant = s.scratch.grant

theorem State.notices_notifyOpt {s : State} {h : PortId} (present : (s.port h).link ≠ .absent) (n : Option Notice) :
    ((s.notifyOpt h n).port h).notices = n.elim (s.port h).notices (queueNotice (s.port h).notices) := by
  cases n with
  | none => rfl
  | some n =>
    change ((s.notify h n).port h).notices = queueNotice (s.port h).notices n
    rw [State.port_notify, if_pos ⟨rfl, present⟩]

/-- The end of a circuit whose lanes have left as `w`, with `back` placed behind their fences. -/
theorem State.ended_told {s w : State} {x : Circuit} {back : List Msg} {e : PoolEnd}
    (lane : ∀ i ∈ x.lanes, w.lane i = (s.lane i).left s.params)
    (pool : w.pool = poolWith e s.pool (x.lanes.filter fun i => decide (s.lane i).Clean))
    (placed : w.placed = s.placed ++ (x.lanes.filterMap fun i => (s.lane i).fenceMsg i) ++ back)
    (ports : w.ports = s.ports) (loss : w.scratch.overflow = false) (grant : w.scratch.grant = s.scratch.grant)
    (c : SlotId) (told : Option Notice) : s.Ended ((w.notifyOpt x.near told).vacate c) x told e back := by
  have port : w.port x.near = s.port x.near := congrArg (fun ps => ps.get x.near) ports
  have notices : (s.port x.near).link ≠ .absent → ((w.notifyOpt x.near told).port x.near).notices
      = told.elim (s.port x.near).notices (queueNotice (s.port x.near).notices) := fun present => by
    rw [← port] at present ⊢
    exact State.notices_notifyOpt present told
  obtain ⟨ps, f⟩ := w.notifyOpt_eq x.near told
  rw [f] at notices ⊢
  exact ⟨lane, pool, placed, notices, loss, grant⟩

theorem State.Ended.send {s u : State} {x : Circuit} {told : Option Notice} {e : PoolEnd} (h : s.Ended u x told e [])
    (room : u.Room 1) (m : Msg) : s.Ended (u.send m) x told e [m] := by
  have marks := State.send_scratch u m room.lt
  have placed := State.placed_send u m room.1 h.loss room.lt
  rw [h.placed, List.append_nil] at placed
  refine ⟨fun i mem => ?_, ?_, placed, fun present => ?_, by rw [marks, h.loss], by rw [marks, h.grant]⟩
  · rw [← h.lane i mem]
    obtain ⟨q, o, k, f, b, v, same⟩ := u.send_eq m
    rw [same]
    rfl
  · rw [← h.pool]
    obtain ⟨q, o, k, f, b, v, same⟩ := u.send_eq m
    rw [same]
  · rw [State.port_send]
    exact h.notices present

theorem State.Ended.dropEntryOfSlot {s u : State} {x : Circuit} {told : Option Notice} {e : PoolEnd} {back : List Msg}
    (h : s.Ended u x told e back) (c : SlotId) : s.Ended (u.dropEntryOfSlot c) x told e back := by
  obtain ⟨q, k, same, -⟩ := u.dropEntries_eq fun e => decide (e.slot = some c)
  rw [State.dropEntryOfSlot, same]
  exact ⟨h.lane, h.pool, h.placed, h.notices, h.loss, h.grant⟩

section Ends

variable {s : State} {c : SlotId} {x : Circuit}

theorem State.ended_completeClose (h : s.circuit c = some x) (nd : x.lanes.Nodup) (out : ∀ i ∈ x.lanes, i ∉ s.pool)
    (unheld : ∀ i ∈ x.lanes, (s.lane i).state ≠ .quarantined) (v : s.scratch.overflow = false)
    (room : s.Room (x.lanes.length + 1)) :
    s.Ended (s.completeClose c) x (x.closeReason.bind (sentNotice c x)) (closeEnd x.closeReason) []
      ∧ (s.completeClose c).Room 1 := by
  obtain ⟨left, room⟩ := State.leftAll_leaveAll nd out unheld v room (closeEnd x.closeReason)
  obtain ⟨-, -, -, ports, -⟩ := s.leaveAll_rest x.lanes false (closeEnd x.closeReason)
  obtain ⟨b, marks⟩ := left.marks
  rw [State.completeClose_of h]
  refine ⟨State.ended_told left.lane left.pool (by rw [left.placed, List.append_nil]) ports (by rw [marks]; exact v)
    (by rw [marks]) c _, ?_⟩
  obtain ⟨ps, e⟩ := (s.leaveAll x.lanes false (closeEnd x.closeReason)).notifyOpt_eq x.near
    (x.closeReason.bind (sentNotice c x))
  rw [e]
  exact room

theorem State.ended_endByPeer (h : s.circuit c = some x) (nd : x.lanes.Nodup) (out : ∀ i ∈ x.lanes, i ∉ s.pool)
    (unheld : ∀ i ∈ x.lanes, (s.lane i).state ≠ .quarantined) (v : s.scratch.overflow = false)
    (room : s.Room (x.lanes.length + 1)) (why : CloseReason) :
    s.Ended (s.endByPeer c why) x (receivedNotice c x why) .tail [.closed x.tag] := by
  obtain ⟨left, room⟩ := State.leftAll_leaveAll nd out unheld v room .tail
  obtain ⟨-, -, -, ports, -⟩ := s.leaveAll_rest x.lanes false .tail
  obtain ⟨b, marks⟩ := left.marks
  have loss : (s.leaveAll x.lanes false .tail).scratch.overflow = false := by rw [marks]; exact v
  have placed := State.placed_send _ (.closed x.tag) room.1 loss room.lt
  have marks' := State.send_scratch (s.leaveAll x.lanes false .tail) (.closed x.tag) room.lt
  obtain ⟨q, o, k, f, b', v', same⟩ := (s.leaveAll x.lanes false .tail).send_eq (.closed x.tag)
  rw [State.endByPeer_of h]
  refine State.ended_told (fun i m => ?_) ?_ (by rw [placed, left.placed]) ?_ (by rw [marks', loss])
    (by rw [marks', marks]) c _
  · rw [← left.lane i m, same]
    rfl
  · rw [← left.pool, same]
  · rw [← ports, same]

end Ends

/-- R41 to R44: CLOSE for a known tag. -/
theorem State.takePeerClose_of {s : State} {g : Tag} {c : SlotId} {x : Circuit} (h : s.matchTag g = some (c, x))
    (why : CloseReason) : s.takePeerClose g why =
      if x.state = .closing then (s.completeClose c).send (.closed g)
      else if x.state = .proposed then (s.endByPeer c why).dropEntryOfSlot c
      else s.endByPeer c why := by
  unfold State.takePeerClose
  rw [h]
  dsimp only
  cases x.state <;> rfl

theorem State.takeClosed_of {s : State} {g : Tag} {c : SlotId} {x : Circuit} (h : s.matchTag g = some (c, x)) :
    s.takeClosed g = if x.state = .closing then s.completeClose c else s := by
  rw [State.takeClosed, h]

theorem State.vacates_takePeerClose {s : State} {g : Tag} {c : SlotId} {x : Circuit} (h : s.matchTag g = some (c, x))
    (why : CloseReason) : s.Vacates (s.takePeerClose g why) c := by
  have circuit := State.circuit_of_matchTag h
  rw [State.takePeerClose_of h]
  split
  · exact (State.vacates_completeClose circuit).send _
  · split
    · exact (State.vacates_endByPeer circuit why).dropEntryOfSlot c
    · exact State.vacates_endByPeer circuit why

/-- R64: the entry of a PROPOSED circuit leaves with it. -/
theorem State.queue_takePeerClose {s : State} {g : Tag} {c : SlotId} {x : Circuit} (h : s.matchTag g = some (c, x))
    (proposed : x.state = .proposed) (why : CloseReason) : ∀ e ∈ (s.takePeerClose g why).queue, e.slot ≠ some c := by
  obtain ⟨q, k, same, rest⟩ := (s.endByPeer c why).dropEntries_eq fun e => decide (e.slot = some c)
  rw [State.takePeerClose_of h, if_neg (by rw [proposed]; decide), if_pos proposed, State.dropEntryOfSlot, same]
  exact fun e m => of_decide_eq_false (rest e m).2

theorem State.ended_takePeerClose {s : State} {g : Tag} {c : SlotId} {x : Circuit} (h : s.matchTag g = some (c, x))
    (tag : x.tag = g) (nd : x.lanes.Nodup) (out : ∀ i ∈ x.lanes, i ∉ s.pool)
    (unheld : ∀ i ∈ x.lanes, (s.lane i).state ≠ .quarantined) (v : s.scratch.overflow = false)
    (room : s.Room (x.lanes.length + 1)) (why : CloseReason) :
    s.Ended (s.takePeerClose g why) x (endNotice c x why) x.poolEnd [.closed g] := by
  have circuit := State.circuit_of_matchTag h
  rw [State.takePeerClose_of h]
  unfold endNotice Circuit.poolEnd
  split
  · obtain ⟨ended, room⟩ := State.ended_completeClose circuit nd out unheld v room
    exact ended.send room _
  · have ended := State.ended_endByPeer circuit nd out unheld v room why
    rw [tag] at ended
    split
    · exact ended.dropEntryOfSlot c
    · exact ended

theorem Circuit.poolEnd_eq (x : Circuit) :
    x.poolEnd = if x.state = .closing ∧ x.closeReason = some .withdrawn then .head else .tail := by
  unfold Circuit.poolEnd
  split
  · rename_i closing
    simp only [closing, true_and]
    cases x.closeReason with
    | none => rfl
    | some why => cases why <;> rfl
  · rename_i going
    exact (if_neg fun h => going h.1).symm

/-- Settles O51: both messages end the circuit, and the end of an event serves nobody. -/
theorem closesComplete : Obligations.ClosesComplete := by
  rintro s r q a g why inOrder rfl clear
  have clear : (s.counted a).Unmarked := (s.scratch_counted a).trans clear
  have close : exec (.close q a g why) s = .next ((s.counted a).received.takePeerClose g why).finish :=
    congrArg Host.Outcome.next (State.receive_inOrder inOrder a _)
  have closed : exec (.closed q a g) s = .next ((s.counted a).received.takeClosed g).finish :=
    congrArg Host.Outcome.next (State.receive_inOrder inOrder a _)
  generalize s.counted a = r at *
  have marks := State.scratch_received clear
  have idle := State.finish_received clear
  refine ⟨fun unknown => ⟨?_, fun can => ?_⟩, fun c x known => ?_⟩
  · have unknown : r.received.matchTag g = none := unknown
    rw [closed, State.takeClosed, unknown]
    exact congrArg _ idle
  · have unknown : r.received.matchTag g = none := unknown
    have answered : r.received.takePeerClose g why = r.received.sent (.closed g) := by
      rw [State.takePeerClose, unknown]
      exact State.send_of_canSend r.received _ can (by rw [marks])
    rw [close, answered, State.finish_of_received (u := r.received.sent (.closed g)) clear rfl]
    exact congrArg _ ((r.sent (.closed g)).clear_of_unmarked clear)
  have known : r.received.matchTag g = some (c, x) := known
  have circuit := State.circuit_of_matchTag known
  refine ⟨fun going => ?_, fun nobody => ⟨_, close, ?_⟩, fun closing nobody => ⟨_, closed, ?_⟩,
    fun m back freed told nobody matching nd tag room owned how hfreed htold => ?_⟩
  · rw [closed, State.takeClosed_of known, if_neg going]
    exact congrArg _ idle
  · have vacates := State.vacates_takePeerClose known why
    rw [(vacates.nobody nobody).slot_finish (by rw [vacates.slot]), vacates.slot]
    rfl
  · have vacates := State.vacates_completeClose circuit
    rw [State.takeClosed_of known, if_pos closing, (vacates.nobody nobody).slot_finish (by rw [vacates.slot]), vacates.slot]
    rfl
  · have told_eq : told = endNotice c x why := by
      rw [htold]
      unfold endNotice
      split
      · unfold sentNotice
        cases x.closeReason with
        | none => cases x.everUp <;> cases x.role <;> rfl
        | some sent => cases x.everUp <;> cases x.role <;> cases sent <;> rfl
      · rfl
    have out : ∀ i ∈ x.lanes, i ∉ r.received.pool := fun i mem pooled => (owned i mem).1 ((matching.2 i).mp pooled)
    have unheld : ∀ i ∈ x.lanes, (r.received.lane i).state ≠ .quarantined := fun i mem => (owned i mem).2
    have loss : r.received.scratch.overflow = false := by rw [marks]
    have ends : ∃ u, exec m s = .next u.finish ∧ r.received.Vacates u c ∧ r.received.Ended u x told x.poolEnd back
        ∧ ∀ e ∈ u.queue, e.slot ≠ some c ∨ x.state ≠ .proposed := by
      rcases how with ⟨rfl, rfl⟩ | ⟨rfl, closing, rfl⟩
      · refine ⟨_, close, State.vacates_takePeerClose known why, ?_, fun e mem => ?_⟩
        · rw [told_eq]
          exact State.ended_takePeerClose known tag nd out unheld loss room why
        · by_cases proposed : x.state = .proposed
          · exact .inl (State.queue_takePeerClose known proposed why e mem)
          · exact .inr proposed
      · have ended := (State.ended_completeClose circuit nd out unheld loss room).1
        refine ⟨_, closed, ?_, ?_, fun _ _ => .inr (by rw [closing]; decide)⟩
        · rw [State.takeClosed_of known, if_pos closing]
          exact State.vacates_completeClose circuit
        · rw [State.takeClosed_of known, if_pos closing, told_eq, endNotice, if_pos closing, Circuit.poolEnd, if_pos closing]
          exact ended
    obtain ⟨u, exec_eq, vacates, ended, dropped⟩ := ends
    rw [(vacates.nobody nobody).finish ended.loss (by rw [ended.grant, marks])] at exec_eq
    refine ⟨_, exec_eq, ended.pool.trans ?_, fun i mem => ?_, ended.placed, dropped, fun present => ?_⟩
    · rw [Circuit.poolEnd_eq, hfreed]
      split <;> rfl
    · rw [State.lane_unmark, ended.lane i mem]
      obtain ⟨place, peer, state, fenced⟩ := Lane.left_spec r.params (r.lane i)
      exact ⟨place, peer, state, fenced⟩
    · refine (ended.notices present).trans ?_
      cases told <;> rfl

end Sys2Proof.Machine
end

section
/-! SUPPORT. Sys2Proof/Proofs/SetupRefused.lean: a SETUP that is discarded or refused (R33, R34). -/

namespace Sys2Proof.Machine

open Sys2Proof

/-- The end of a received message's event whose owner has answered with one message. -/
theorem State.finish_sent_received {r : State} (clear : r.Unmarked) (m : Msg) : (r.received.sent m).finish = r.sent m := by
  rw [State.finish_of_received (u := r.received.sent m) clear rfl]
  exact (r.sent m).clear_of_unmarked clear

/-- An answer that finds the channel open on a received message. -/
theorem State.send_received {r : State} (clear : r.Unmarked) (can : r.CanSend) (m : Msg) :
    r.received.send m = r.received.sent m :=
  State.send_of_canSend r.received m can (by rw [State.scratch_received clear])

/-! ### The checks in order (R33, R34) -/

/-- A filter holds nothing exactly where no member of the list passes it. -/
theorem List.filter_ne_nil_iff {α : Type} {p : α → Prop} [DecidablePred p] {l : List α} :
    l.filter (fun a => decide (p a)) ≠ [] ↔ ∃ a ∈ l, p a := by
  simp [List.filter_eq_nil_iff]

/-- R23: no slot is VACANT exactly where every slot holds a circuit. -/
theorem State.vacantSlot_eq_none {s : State} : s.vacantSlot = none ↔ ∀ c, s.circuit c ≠ none := by
  simp [State.vacantSlot]

/-- R33: a SETUP under this side's own tag or a stored one is discarded. -/
theorem State.takeSetup_known {s : State} {g : Tag} (h : g.side = s.side ∨ s.answers g = true) (far near : Byte) (cls : Cls)
    (rw mw : Byte) (pairs : List (Byte × Byte)) : s.takeSetup g far near cls rw mw pairs = s :=
  if_pos h

/-- R33: a SETUP out of range is discarded. -/
theorem State.takeSetup_outOfRange (s : State) (g : Tag) {far near rw mw : Byte} {pairs : List (Byte × Byte)} (cls : Cls)
    (h : setupIn far near rw mw pairs = none) : s.takeSetup g far near cls rw mw pairs = s := by
  simp [State.takeSetup, h]

/-- R33, R34: a SETUP that fails a check is answered with REFUSE. -/
theorem State.takeSetup_refused {s : State} {g : Tag} {far near rw mw : Byte} {pairs : List (Byte × Byte)} {m : SetupIn}
    {why : RefuseReason} {lanes : List LaneId} (cls : Cls) (side : g.side ≠ s.side) (fresh : s.answers g = false)
    (content : setupIn far near rw mw pairs = some m) (fails : s.setupRefusal m = some (why, lanes)) :
    s.takeSetup g far near cls rw mw pairs = s.send (.refuse g why (lanes.map fun i => byteOf i.val)) := by
  simp [State.takeSetup, side, fresh, content, fails]

/-- R33, R34: the checks in their order; the first that fails names the reason and the lanes. -/
theorem State.setupRefusal_of {r : State} {m : SetupIn} {why : RefuseReason} {lanes : List LaneId}
    (check : if (r.port m.near).link = .absent then why = .farPortAbsent ∧ lanes = []
      else if 4 ≤ (r.circuitsOf m.near).length + (r.waitingOf m.near).length then why = .farPortLimit ∧ lanes = []
      else if (r.freeHostLanes m.near).length < m.lanes.length then why = .farPortLanes ∧ lanes = []
      else if ∀ c, r.circuit c ≠ none then why = .farTableFull ∧ lanes = []
      else if ∃ i ∈ m.lanes, (r.lane i).state ≠ .free ∧ (r.lane i).state ≠ .claimed then
        why = .laneUnavailable ∧ lanes = r.otherLanes m.lanes
      else if r.side = .a ∧ ∃ i ∈ m.lanes, (r.lane i).state = .claimed then
        why = .laneConflict ∧ lanes = r.claimedLanes m.lanes
      else False) : r.setupRefusal m = some (why, lanes) := by
  have others : r.otherLanes m.lanes ≠ [] ↔ ∃ i ∈ m.lanes, (r.lane i).state ≠ .free ∧ (r.lane i).state ≠ .claimed :=
    List.filter_ne_nil_iff
  have claimed : r.claimedLanes m.lanes ≠ [] ↔ ∃ i ∈ m.lanes, (r.lane i).state = .claimed := List.filter_ne_nil_iff
  unfold State.setupRefusal
  simp only [Port.present, bne_eq_false_iff_eq, State.portLoad, State.vacantSlot_eq_none, others, claimed]
  split_ifs at check ⊢
  all_goals rw [check.1, check.2]

/-- Settles O43: each check stands in the model's chain where the statement has it, and a SETUP that passes them all is
none of the statement's. -/
theorem setupRefused : Obligations.SetupRefused := by
  rintro s r q a g far near cls rw mw pairs inOrder rfl clear
  have clear : (s.counted a).Unmarked := (s.scratch_counted a).trans clear
  have taken : exec (.setup q a g far near cls rw mw pairs) s
      = .next ((s.counted a).received.takeSetup g far near cls rw mw pairs).finish :=
    congrArg Host.Outcome.next (State.receive_inOrder inOrder a _)
  rw [taken]
  generalize s.counted a = r at *
  refine ⟨fun discarded => ?_, fun m why lanes side fresh content can check => ?_⟩
  · have same : r.received.takeSetup g far near cls rw mw pairs = r.received := by
      rcases discarded with own | stored | out
      · exact State.takeSetup_known (s := r.received) (.inl own) ..
      · exact State.takeSetup_known (s := r.received) (.inr stored) ..
      · exact State.takeSetup_outOfRange _ g cls out
    rw [same, State.finish_received clear]
  · have fails : r.received.setupRefusal m = some (why, lanes) := State.setupRefusal_of (r := r) check
    rw [State.takeSetup_refused (s := r.received) cls side fresh content fails, State.send_received clear can,
      State.finish_sent_received clear]

end Sys2Proof.Machine
end

section
/-! SUPPORT. Sys2Proof/Proofs/Accept.lean: ACCEPT takes a proposal into training (R30, R63, R82). -/

namespace Sys2Proof.Machine

open Sys2Proof

/-! ### Runs that begin (R82) -/

/-- R2, R82: an owned lane whose run has begun. -/
def Lane.started (p : Params) (l : Lane) : Lane := { l.enter .training with training := some (freshRecord p l 1) }

theorem State.startRun_eq (s : State) (i : LaneId) : ∃ ls q g,
    s.startRun i = { s with
      lanes := ls, pool := s.pool.filter fun j => decide (j ≠ i), dwellQueue := q,
      scratch := { s.scratch with grant := g } }
    ∧ ∀ j, ls.get j = if j = i then (s.lane i).started s.params else s.lane j := by
  let t := (s.moveLane i .training).modLane i fun l => { l with training := some (freshRecord s.params l 1) }
  have lane (j) : t.lane j = if j = i then (s.lane i).started s.params else s.lane j := by
    rw [State.lane_modLane, State.lane_moveLane, State.lane_moveLane, if_pos rfl]
    split <;> rfl
  have asked : ∃ q g, t.requestDwell i .train = { t with dwellQueue := q, scratch := { s.scratch with grant := g } } := by
    unfold State.requestDwell
    split
    · exact ⟨t.dwellQueue, s.scratch.grant, rfl⟩
    · exact ⟨_, true, rfl⟩
  obtain ⟨q, g, e⟩ := asked
  exact ⟨t.lanes, q, g, e, lane⟩

theorem State.foldl_startRun (l : List LaneId) (nd : l.Nodup) (s : State) : ∃ ls pool q g,
    l.foldl State.startRun s = { s with
      lanes := ls, pool := pool, dwellQueue := q, scratch := { s.scratch with grant := g } }
    ∧ ∀ j, ls.get j = if j ∈ l then (s.lane j).started s.params else s.lane j := by
  induction l generalizing s with
  | nil => exact ⟨s.lanes, s.pool, s.dwellQueue, s.scratch.grant, rfl, fun j => by simp [State.lane]⟩
  | cons a l ih =>
    obtain ⟨na, nd⟩ := List.nodup_cons.mp nd
    obtain ⟨ls, q, g, e, first⟩ := s.startRun_eq a
    obtain ⟨ls', pool, q', g', e', later⟩ := ih nd (s.startRun a)
    have lane (j) : (s.startRun a).lane j = if j = a then (s.lane a).started s.params else s.lane j := by
      rw [e]
      exact first j
    have params : (s.startRun a).params = s.params := by rw [e]
    refine ⟨ls', pool, q', g', by rw [List.foldl_cons, e', e], fun j => ?_⟩
    rw [later, lane, params]
    by_cases k : j = a
    · subst k
      simp [na]
    · simp [k]

/-! ### The proposal that is accepted (R30, R63) -/

/-- R30: a circuit whose positions all hold their lanes leaves no position to repair. -/
theorem Circuit.emptyPositions_of_full {x : Circuit} (full : ∀ p ∈ x.positions, p.current ≠ none) :
    x.emptyPositions = [] := by
  refine List.filter_eq_nil_iff.mpr fun n _ => ?_
  cases here : x.positions[n]? with
  | none => simp
  | some p =>
    have held := full p (List.mem_of_getElem? here)
    simp [held]

/-- What `u` is where, from `s`, the proposal `x` of slot `c` has been accepted with the answer slot `b`: its lanes train,
and its entry has left. -/
structure State.Accepts (s u : State) (c : SlotId) (x : Circuit) (b : Byte) : Prop where
  circuit : u.circuit c = some { x with state := .training, answerSlot := slotOfByte b }
  lane : ∀ i ∈ x.lanes, u.lane i = (s.lane i).started s.params
  queue : ∀ e ∈ u.queue, e ∈ s.queue ∧ e.slot ≠ some c
  seeking : u.seeking = s.seeking
  loss : u.scratch.overflow = s.scratch.overflow

/-- R30, R63, R82: what ACCEPT does, up to the end of its event. -/
theorem State.accepts_accepted {s : State} {x : Circuit} (full : ∀ p ∈ x.positions, p.current ≠ none)
    (nd : x.lanes.Nodup) (c : SlotId) (b : Byte) : s.Accepts (s.accepted c x b) c x b := by
  let y : Circuit := { x with state := .training, answerSlot := slotOfByte b }
  obtain ⟨ls, pool, dq, g, runs, lanes⟩ := State.foldl_startRun x.lanes nd (s.setCircuit c y)
  obtain ⟨queue, k, drops, rest⟩ := State.dropEntries_eq (x.lanes.foldl State.startRun (s.setCircuit c y))
    fun e => decide (e.slot = some c)
  have form : s.accepted c x b = (x.lanes.foldl State.startRun (s.setCircuit c y)).dropEntryOfSlot c := by
    unfold State.accepted
    rw [Circuit.emptyPositions_of_full full]
    rfl
  rw [runs] at drops rest
  rw [form, State.dropEntryOfSlot, runs, drops]
  refine ⟨State.circuit_setCircuit_self s c y, fun i mem => (lanes i).trans (if_pos mem), fun e mem => ?_, rfl, rfl⟩
  obtain ⟨held, other⟩ := rest e mem
  exact ⟨held, of_decide_eq_false other⟩

theorem State.takeAccept_of {s : State} {g : Tag} {c : SlotId} {x : Circuit} (h : s.matchTag g = some (c, x)) (b : Byte) :
    s.takeAccept g b = if x.state = .proposed then s.accepted c x b else s := by
  rw [State.takeAccept, h]

/-- Settles O45: nobody waits, so that the end of the event has grants alone to make. -/
theorem acceptTaken : Obligations.AcceptTaken := by
  rintro s r q a g b inOrder rfl clear
  have clear : (s.counted a).Unmarked := (s.scratch_counted a).trans clear
  have taken : exec (.accept q a g b) s = .next ((s.counted a).received.takeAccept g b).finish :=
    congrArg Host.Outcome.next (State.receive_inOrder inOrder a _)
  rw [taken]
  generalize s.counted a = r at *
  have idle := State.finish_received clear
  refine ⟨fun unknown => ?_, fun c x known => ⟨fun other => ?_, fun proposed nobody full nd => ?_⟩⟩
  · have unknown : r.received.matchTag g = none := unknown
    rw [State.takeAccept, unknown]
    exact congrArg _ idle
  · rw [State.takeAccept_of (s := r.received) known, if_neg other, idle]
  · rw [State.takeAccept_of (s := r.received) known, if_pos proposed]
    obtain ⟨circuit, lane, queue, seeking, loss⟩ := State.accepts_accepted (s := r.received) full nd c b
    rw [State.scratch_received clear] at loss
    generalize r.received.accepted c x b = u at *
    have nobody' : u.NobodyWaits := ⟨seeking.trans nobody.1, fun e mem => nobody.2 e (queue e mem).1⟩
    rw [State.finish_of_quiet u nobody' loss]
    obtain ⟨ls, dq, us, granted, grants⟩ := u.ite_grant_eq
    refine ⟨_, congrArg _ granted, circuit, fun i mem => ?_, fun e mem => (queue e mem).2⟩
    obtain ⟨p, f, own, -⟩ := grants i
    have own : ls.get i = { (r.lane i).started r.params with preset := p, applied := f } := by
      rw [own, lane i mem]
      rfl
    simp only [State.lane, own]
    exact ⟨rfl, rfl, rfl⟩

end Sys2Proof.Machine
end

section
/-! SUPPORT. Sys2Proof/Proofs/LossOfLock.lean: an ACTIVE lane declared FAILING for any reason (R104, R110 to R115), and the
loss-of-lock report (R102). -/

namespace Sys2Proof.Machine

open Sys2Proof

/-! ### What a pick shows (R114, R115) -/

/-- R114, R115: between `s` and `t` the position `n` of the circuit `x`, which stands as `q`, made a pick, whatever the pool
of `s` lists. -/
structure State.PickShown (s t : State) (c : SlotId) (n : Nat) (x : Circuit) (q : Position) : Prop where
  seeks : s.pool = [] → t.placed = s.placed ∧ (c, n) ∈ t.seeking
    ∧ t.position c n = some (q.seeks s.params.repairPatience)
  proposes : ∀ j rest, s.pool = j :: rest →
    t.placed = s.placed ++ [.amend x.tag (byteOf n) (some (byteOf j.val))]
    ∧ (t.lane j).state = .claimed ∧ (t.lane j).place = some ⟨c, .replacement, n⟩
    ∧ t.position c n = some (q.proposing j)

theorem State.position_modPosition {s : State} {c : SlotId} {n : Nat} {x : Circuit} {q : Position}
    (hx : s.circuit c = some x) (hq : x.positions[n]? = some q) (f : Position → Position) :
    (s.modPosition c n f).position c n = some (f q) := by
  rw [State.position, State.circuit_modPosition, if_pos rfl, hx]
  simp [hq]

theorem State.position_send (s : State) (m : Msg) (c : SlotId) (n : Nat) : (s.send m).position c n = s.position c n := by
  simp [State.position]

theorem State.pickShown_pick {s : State} {c : SlotId} {n : Nat} {x : Circuit} {q : Position} (hx : s.circuit c = some x)
    (hq : x.positions[n]? = some q) (live : x.live = true) (left : q.attempts < 3) (v : s.scratch.overflow = false)
    (room : s.Room 1) : s.PickShown (s.pick c n) c n x q := by
  rw [State.pick_of hx hq live left]
  constructor
  · intro empty
    rw [empty]
    dsimp only
    rw [State.seek_eq]
    obtain ⟨-, -, -, -, -, -, -, -, -, -, -, -, -, -, placed, -⟩ :=
      s.modPosition_rest c n (Position.seeks s.params.repairPatience)
    exact ⟨placed, List.mem_append_right _ List.mem_cons_self, State.position_modPosition hx hq _⟩
  · intro j rest e
    rw [e]
    dsimp only
    rw [State.propose_eq]
    have taken : (s.takeLane j .claimed ⟨c, .replacement, n⟩).circuit c = some x := hx
    refine ⟨?_, ?_, ?_, ?_⟩
    · rw [State.placed_send _ _ (by simpa using room.1) (by simpa using v) (by simpa using room.lt)]
      simp [State.placed]
    · simp [State.lane_takeLane, Lane.enter]
    · simp [State.lane_takeLane]
    · rw [State.position_send]
      exact State.position_modPosition taken hq _

/-! ### The UP phase (R104, R110, R112) -/

section Failing

variable {s : State} {i : LaneId} {pl : Place} {x : Circuit} {p : Position}

/-- R104 step 3, R112: in the UP phase the origin's position begins a repair, and an answering one not in repair tells the
origin. -/
theorem State.Fills.declareFailing_upPhase (h : s.Fills i pl x p) (up : x.state = .up ∨ x.state = .repairing)
    (r : FailReason) (f : Byte) : s.declareFailing i r f =
      match x.role with
      | .origin => (s.declared i r f).startRepair pl.slot pl.position
      | .answer =>
          if p.repair = .none then
            ((s.declared i r f).send (.laneFail x.tag (byteOf pl.position) r)).markRepairing pl.slot
          else s.declared i r f := by
  refine (h.declareFailing r f).trans (((h.declared r f).laneFailed r).trans ?_)
  rcases up with e | e <;> cases x.role <;> simp [Circuit.upPhase, e]

/-- R112: a position in repair goes on with it. -/
theorem State.Fills.declareFailing_inRepair (h : s.Fills i pl x p) (state : x.state = .repairing) (busy : p.repair ≠ .none)
    (r : FailReason) (f : Byte) : s.declareFailing i r f = s.declared i r f := by
  have fails := h.declared r f
  rw [h.declareFailing_upPhase (.inr state)]
  cases x.role
  · exact State.startRepair_of_busy fails.circuit fails.position busy
  · exact if_neg busy

/-- What `t` shows where, from `s`, the lane `i` of the circuit `x` has been declared FAILING in the UP phase at a position
not in repair: `y` is the circuit then. -/
structure State.FailsUp (s t : State) (i : LaneId) (pl : Place) (x y : Circuit) (r : FailReason) : Prop where
  marks : t.scratch = s.scratch
  lane : t.lane i = (s.lane i).declared r
  circuit : t.circuit pl.slot = some y
  repairing : y.state = .repairing
  bound : t.boundTo i = s.boundTo i
  told : x.state = .up → (s.port x.near).link ≠ .absent →
    (t.port x.near).notices = queueNotice (s.port x.near).notices (.circuitRepairing pl.slot)

theorem Circuit.state_repairing (up : x.state = .up ∨ x.state = .repairing) : x.repairing.state = .repairing := by
  rcases up with e | e <;> simp [Circuit.repairing, e]

/-- R112: the answering side tells the origin. -/
theorem State.Fills.failsUp_answer (h : s.Fills i pl x p) (active : (s.lane i).state = .active)
    (up : x.state = .up ∨ x.state = .repairing) (answer : x.role = .answer) (idle : p.repair = .none)
    (v : s.scratch.overflow = false) (room : s.Room 1) (r : FailReason) (f : Byte) :
    s.FailsUp (s.declareFailing i r f) i pl x x.repairing r
      ∧ (s.declareFailing i r f).placed = s.placed ++ [.laneFail x.tag (byteOf pl.position) r] := by
  have form := h.declareFailing_upPhase up r f
  rw [answer] at form
  dsimp only at form
  rw [form, if_pos idle]
  have own := (State.lane_declared active r f i).trans (if_pos rfl)
  have sent : ((s.declared i r f).send (.laneFail x.tag (byteOf pl.position) r)).circuit pl.slot = some x := by
    rw [State.send_circuit]
    exact h.circuit
  have circuit := State.circuit_markRepairing sent
  have lane : ((((s.declared i r f).send (.laneFail x.tag (byteOf pl.position) r)).markRepairing pl.slot)).lane i
      = (s.lane i).declared r := by simpa using own
  have fills : ((((s.declared i r f).send (.laneFail x.tag (byteOf pl.position) r)).markRepairing pl.slot)).Fills i pl
      x.repairing p := ⟨by rw [lane]; exact h.place, circuit, h.position⟩
  refine ⟨⟨?_, lane, circuit, Circuit.state_repairing up, ?_, fun state present => ?_⟩, ?_⟩
  · simp only [State.markRepairing_rest]
    exact State.send_scratch (s.declared i r f) _ room.lt
  · rw [h.boundTo (.inl active), fills.boundTo (.inr (by rw [lane]; rfl))]
    rfl
  · rw [State.notices_markRepairing sent state (by rw [State.port_send]; exact present), State.port_send]
    rfl
  · simp only [State.markRepairing_rest]
    exact State.placed_send (s.declared i r f) _ room.1 v room.lt

/-- R110: the origin's position makes a pick. -/
theorem State.Fills.failsUp_origin (h : s.Fills i pl x p) (active : (s.lane i).state = .active)
    (up : x.state = .up ∨ x.state = .repairing) (origin : x.role = .origin) (idle : p.repair = .none)
    (held : p.dropped = false) (few : p.attempts < 3) (out : i ∉ s.pool) (v : s.scratch.overflow = false)
    (room : s.Room 1) (r : FailReason) (f : Byte) :
    (∃ y, s.FailsUp (s.declareFailing i r f) i pl x y r)
      ∧ s.PickShown (s.declareFailing i r f) pl.slot pl.position x p := by
  have form := h.declareFailing_upPhase up r f
  have fails := h.declared r f
  rw [origin] at form
  dsimp only at form
  rw [form, State.startRepair_of fails.circuit fails.position idle held]
  have circuit := State.circuit_markRepairing fails.circuit
  have live : x.repairing.live = true := by simp [Circuit.live, Circuit.state_repairing up]
  have pool : (s.declared i r f).pool = s.pool := by rw [State.pool_declared, List.filter_ne_self out]
  have notices := State.notices_markRepairing fails.circuit
  obtain ⟨-, params', trunk', -, -, -, pool', -, sends', -, scratch', placed', lane'⟩ :=
    (s.declared i r f).markRepairing_rest pl.slot
  have own := (lane' i).trans ((State.lane_declared active r f i).trans (if_pos rfl))
  have room' : ((s.declared i r f).markRepairing pl.slot).Room 1 := ⟨trunk'.trans room.1, by rw [sends']; exact room.2⟩
  have pool' := pool'.trans pool
  have scratch' : _ = s.scratch := scratch'
  have placed' : _ = s.placed := placed'
  have params' : _ = s.params := params'
  generalize (s.declared i r f).markRepairing pl.slot = u at *
  obtain ⟨marks, ports, -, lanes, g, after, host⟩ := State.frame_pick circuit h.position live few room'
  have shown := State.pickShown_pick circuit h.position live few (by rw [scratch']; exact v) room'
  have lane := (lanes i (by rw [pool']; exact out)).trans own
  have fills : (u.pick pl.slot pl.position).Fills i pl
      { x.repairing with positions := x.repairing.positions.modify pl.position g } (g p) :=
    ⟨by rw [lane]; exact h.place, after, by
      change (x.positions.modify pl.position g)[pl.position]? = _
      simp [h.position]⟩
  refine ⟨⟨_, marks.trans scratch', lane, after, Circuit.state_repairing up, ?_, fun state present => ?_⟩, ?_, ?_⟩
  · rw [h.boundTo (.inl active), fills.boundTo (.inr (by rw [lane]; rfl)), host]
    rfl
  · rw [State.port, ports]
    exact notices state present
  · rw [← pool', ← placed', ← params']
    exact shown.seeks
  · rw [← pool', ← placed']
    exact shown.proposes

/-! ### The setup phase (R38, R104, R113, R114) -/

/-- What `u` is where, from `s`, the lane `i` of the circuit `x` has been declared FAILING in the setup phase and has left as
QUARANTINED, and its position has not yet acted on the loss. -/
structure State.FailsOut (s u : State) (i : LaneId) (pl : Place) (x : Circuit) (r : FailReason) : Prop where
  marks : u.scratch = s.scratch
  params : u.params = s.params
  pool : u.pool = s.pool
  lane : u.lane i = (((s.lane i).declared r).fenceLocally s.params).clearPlace.enter .quarantined
  circuit : u.circuit pl.slot = some (x.without pl)
  placed : u.placed = s.placed ++ [.fence (byteOf i.val) (.failure r)]

theorem State.Fills.failsOut (h : s.Fills i pl x p) (active : (s.lane i).state = .active) (setup : x.state = .training)
    (out : i ∉ s.pool) (v : s.scratch.overflow = false) {n : Nat} (room : s.Room (n + 1)) (r : FailReason) (f : Byte) :
    ∃ u, s.declareFailing i r f = u.positionLost pl.slot pl.position (some r) ∧ s.FailsOut u i pl x r ∧ u.Room n := by
  have fails := h.declared r f
  have form : s.declareFailing i r f
      = (((s.declared i r f).unname i).leaveAll [i] false .tail).positionLost pl.slot pl.position (some r) := by
    rw [h.declareFailing, fails.laneFailed, if_pos setup]
  have circuit := fails.circuit_unname
  obtain ⟨-, dparams, dtrunk, -, -, -, dpool, -, -, -, -, dsends, -, dscratch, dplaced, dlane⟩ :=
    (s.declared i r f).unname_rest i
  have lane := (dlane i).trans ((State.lane_declared active r f i).trans (if_pos rfl))
  obtain ⟨-, params, trunk, -, -, -, -, sends, -, scratch, placed, -⟩ := s.declared_rest i r f
  have room : ((s.declared i r f).unname i).Room (n + 1) :=
    ⟨(dtrunk.trans trunk).trans room.1, by rw [dsends, sends]; exact room.2⟩
  have pool := dpool.trans (s.pool_declared i r f)
  rw [List.filter_ne_self out] at pool
  rw [scratch] at dscratch
  rw [placed] at dplaced
  rw [params] at dparams
  generalize (s.declared i r f).unname i = d at *
  obtain ⟨marks, placed⟩ := d.setLocalFence_room i (d.ownerTag i) (.failure r) (by rw [dscratch]; exact v) room.lt
  obtain ⟨-, params, -, -, -, -, pool', -, -, -, circuits⟩ := d.setLocalFence_rest i (d.ownerTag i) (.failure r)
  rw [State.leaveAll_failed (r := r) (by rw [lane]; rfl) false .tail] at form
  obtain ⟨up, sends⟩ := room.setLocalFence i (d.ownerTag i) (.failure r)
  refine ⟨(d.setLocalFence i (d.ownerTag i) (.failure r)).quarantine i, form, ⟨?_, ?_, ?_, ?_, ?_, ?_⟩,
    (State.quarantine_trunk ..).trans up, by rw [State.quarantine_sendQueue]; exact sends⟩
  · exact (State.quarantine_scratch ..).trans (marks.trans dscratch)
  · exact (State.quarantine_params ..).trans (params.trans dparams)
  · rw [State.pool_quarantine, pool', pool, List.filter_ne_self out]
  · rw [State.lane_quarantine, if_pos rfl, State.lane_setLocalFence, if_pos rfl, lane, dparams]
  · rw [State.circuit, State.quarantine_slots]
    exact (circuits pl.slot).trans circuit
  · rw [State.placed_quarantine, placed, if_pos room.1, dplaced]
    rfl

end Failing

/-! ### The report (R102) -/

/-- R102: the report declares an ACTIVE lane FAILING; the declaration marks nothing for the end of the event. -/
theorem exec_lossOfLock {s : State} {i : LaneId} (active : (s.lane i).state = .active)
    (calm : (s.declareFailing i .lockLost 0).Unmarked) :
    exec (.lossOfLock i) s = .next (s.declareFailing i .lockLost 0) := by
  refine congrArg Host.Outcome.next ((if_pos active).trans ?_)
  exact State.finish_of_unmarked _ calm

/-- R102, R104, R113, R114: the report for a current lane of a circuit in the setup phase. -/
theorem lossOfLock_setup {s : State} {i : LaneId} {pl : Place} {x : Circuit} {p : Position} (clear : s.Unmarked)
    (fills : s.Fills i pl x p) (active : (s.lane i).state = .active) (setup : x.state = .training) (idle : p.repair = .none)
    (few : p.attempts < 3) (out : i ∉ s.pool) (room : s.Room 2) :
    ∃ t y more, exec (.lossOfLock i) s = .next t ∧ t.circuit pl.slot = some y ∧ y.state = .training
      ∧ t.lane i = (((s.lane i).declared .lockLost).fenceLocally s.params).clearPlace.enter .quarantined
      ∧ t.placed = s.placed ++ .fence (byteOf i.val) (.failure .lockLost) :: more
      ∧ (x.role = .answer → more = [.laneFail x.tag (byteOf pl.position) .lockLost]
          ∧ y.positions[pl.position]? = some (p.without pl.role))
      ∧ (x.role = .origin → s.pool = [] → more = [] ∧ (pl.slot, pl.position) ∈ t.seeking
          ∧ y.positions[pl.position]? = some ((p.without pl.role).seeks s.params.repairPatience))
      ∧ (x.role = .origin → ∀ j rest, s.pool = j :: rest → (t.lane j).state = .claimed
          ∧ more = [.amend x.tag (byteOf pl.position) (some (byteOf j.val))]
          ∧ y.positions[pl.position]? = some ((p.without pl.role).proposing j)) := by
  obtain ⟨u, form, left, room⟩ := fills.failsOut active setup out (by rw [clear]) room .lockLost 0
  have position := Circuit.getElem?_without fills.position
  have idle' : (p.without pl.role).repair = .none := by simpa using idle
  have marks : u.scratch = {} := left.marks.trans clear
  cases role : x.role with
  | answer =>
    rw [State.positionLost_waits left.circuit position (.inl role), if_pos ⟨role, setup, idle'⟩] at form
    refine ⟨_, x.without pl, [.laneFail x.tag (byteOf pl.position) .lockLost], exec_lossOfLock active ?_, ?_⟩
    · rw [form]
      exact (State.send_scratch _ _ room.lt).trans marks
    rw [form, State.send_circuit, State.send_lane, State.placed_send _ _ room.1 (by rw [marks]) room.lt, left.placed]
    exact ⟨left.circuit, setup, left.lane, by simp [Circuit.without], fun _ => ⟨rfl, position⟩, fun no => (nomatch no),
      fun no => nomatch no⟩
  | origin =>
    have role' : (x.without pl).role = .origin := role
    have live : (x.without pl).live = true := by simp [Circuit.live, Circuit.without, setup]
    have picks : s.declareFailing i .lockLost 0 = u.pick pl.slot pl.position := by
      rw [form, State.positionLost_of left.circuit position, role']
      exact if_neg (by simp [Circuit.without, setup, idle])
    have few' : (p.without pl.role).attempts < 3 := by simpa using few
    obtain ⟨marks', -, -, lanes, g, circuit, -⟩ := State.frame_pick left.circuit position live few' room
    obtain ⟨seeks, proposes⟩ := State.pickShown_pick left.circuit position live few' (by rw [marks]) room
    have own := (lanes i (by rw [left.pool]; exact out)).trans left.lane
    rw [left.pool, left.placed] at seeks proposes
    rw [left.params] at seeks
    have calm : (s.declareFailing i .lockLost 0).Unmarked := by rw [picks]; exact marks'.trans marks
    have run := exec_lossOfLock active calm
    rw [picks] at run
    have seen (q) (h : (u.pick pl.slot pl.position).position pl.slot pl.position = some q) :
        ((x.without pl).positions.modify pl.position g)[pl.position]? = some q := by
      rw [← h, State.position_eq circuit]
    cases pool : s.pool with
    | nil =>
      obtain ⟨placed, seeking, left⟩ := seeks pool
      exact ⟨_, _, [], run, circuit, setup, own, placed, fun no => (nomatch no),
        fun _ _ => ⟨rfl, seeking, seen _ left⟩, fun _ _ _ no => nomatch no⟩
    | cons j rest =>
      obtain ⟨placed, state, -, left⟩ := proposes j rest pool
      refine ⟨_, _, [.amend x.tag (byteOf pl.position) (some (byteOf j.val))], run, circuit, setup, own, ?_,
        fun no => (nomatch no), fun _ no => (nomatch no), fun _ k more e => ?_⟩
      · rw [placed, List.append_assoc]
        rfl
      · obtain ⟨rfl, -⟩ := List.cons.inj e
        exact ⟨state, rfl, seen _ left⟩

/-- Settles O56, by the lane's state, the phase of its circuit and the side. -/
theorem lossOfLockTaken : Obligations.LossOfLockTaken := by
  refine fun s i => ⟨fun other => congrArg Host.Outcome.next (if_neg other), ?_⟩
  intro pl x p active clear place circuit position
  have fills : s.Fills i pl x p := ⟨place, circuit, position⟩
  refine ⟨fun state busy => ?_, fun up idle fresh held out room => ?_, fun setup role current idle few out room => ?_⟩
  · have form := fills.declareFailing_inRepair state busy .lockLost 0
    refine ⟨_, exec_lossOfLock active (by rw [form]; exact clear), ?_⟩
    rw [form]
    simp only [State.lane_declared active, State.declared_rest, ite_true]
    exact ⟨rfl, fun j ne => if_neg ne, fun _ => trivial, rfl, fills.ring_declared .lockLost 0⟩
  · cases role : x.role with
    | answer =>
      obtain ⟨fails, placed⟩ := fills.failsUp_answer active up role idle (by rw [clear]) room .lockLost 0
      exact ⟨_, _, exec_lossOfLock active (fails.marks.trans clear), fails.circuit, fails.repairing, fails.lane, fails.bound,
        fails.told, fun _ => ⟨rfl, placed⟩, fun no => (nomatch no), fun no => nomatch no⟩
    | origin =>
      obtain ⟨⟨y, fails⟩, seeks, proposes⟩ := fills.failsUp_origin active up role idle held (by omega) out (by rw [clear])
        room .lockLost 0
      rw [State.position_eq fails.circuit] at seeks proposes
      refine ⟨_, y, exec_lossOfLock active (fails.marks.trans clear), fails.circuit, fails.repairing, fails.lane, fails.bound,
        fails.told, fun no => (nomatch no), fun _ => seeks, fun _ j rest pool => ?_⟩
      obtain ⟨placed, state, place, left⟩ := proposes j rest pool
      refine ⟨state, place, left.trans ?_, placed⟩
      rw [Position.proposing, fresh]
  · obtain ⟨t, y, more, run, after, state, own, placed, answers, seeks, proposes⟩ :=
      lossOfLock_setup clear fills active setup idle few out room
    have bound : t.boundTo i = none := State.boundTo_of_other (by rw [own]; simp [Lane.enter])
    rw [role] at answers seeks proposes
    exact ⟨t, y, more, run, after, state, congrArg Lane.state own, congrArg Lane.localFence own, congrArg Lane.place own,
      congrArg Lane.failure own, congrArg Lane.failCount own, bound, placed, answers, seeks, proposes⟩

end Sys2Proof.Machine
end

section
/-! SUPPORT. Sys2Proof/Proofs/Service.lean: an entry that is served (R28, R60), and the service scan where one entry alone can
be (R54, R59). -/

namespace Sys2Proof.Machine

open Sys2Proof

/-! ### Lanes taken from the pool's head (R28) -/

/-- R28: a lane that has been claimed for a place. -/
def Lane.claimedFor (pl : Place) (l : Lane) : Lane := { l.enter .claimed with place := some pl, peerTrained := false }

theorem State.foldl_claim (c : SlotId) (l : List (Nat × LaneId)) (s : State) : ∃ ls dq,
    l.foldl (fun s pl => s.takeLane pl.2 .claimed ⟨c, .current, pl.1⟩) s = { s with
      lanes := ls, pool := s.pool.filter fun j => decide (j ∉ l.map Prod.snd), dwellQueue := dq }
    ∧ (∀ j, j ∉ l.map Prod.snd → ls.get j = s.lane j)
    ∧ ((l.map Prod.snd).Nodup → ∀ k i, (k, i) ∈ l → ls.get i = (s.lane i).claimedFor ⟨c, .current, k⟩) := by
  induction l generalizing s with
  | nil => exact ⟨s.lanes, s.dwellQueue, by simp, fun _ _ => rfl, fun _ _ _ m => nomatch m⟩
  | cons a l ih =>
    obtain ⟨ls, dq, e, others, claimed⟩ := ih (s.takeLane a.2 .claimed ⟨c, .current, a.1⟩)
    have lane (j) := s.lane_takeLane a.2 j .claimed ⟨c, .current, a.1⟩
    refine ⟨ls, dq, ?_, fun j no => ?_, fun nd k i m => ?_⟩
    · rw [List.foldl_cons, e, State.pool_takeLane, List.filter_ne_filter_not_mem]
      rfl
    · obtain ⟨ne, no⟩ := not_or.mp fun k => no (List.mem_cons.mpr k)
      rw [others j no, lane, if_neg ne]
    · obtain ⟨na, nd⟩ := List.nodup_cons.mp nd
      rcases List.mem_cons.mp m with rfl | m
      · rw [others i na, lane, if_pos rfl]
        rfl
      · have ne : i ≠ a.2 := fun e => na (e ▸ List.mem_map.mpr ⟨(k, i), m, rfl⟩)
        rw [claimed nd k i m, lane, if_neg ne]

theorem List.filter_not_mem_take {α : Type} [DecidableEq α] {l : List α} (nd : l.Nodup) (n : Nat) :
    l.filter (fun a => decide (a ∉ l.take n)) = l.drop n := by
  have apart := List.disjoint_take_drop nd (le_refl n)
  conv_lhs => rw [← List.take_append_drop n l, List.filter_append]
  rw [List.filter_eq_nil_iff.mpr fun a m => ?_, List.filter_eq_self.mpr fun a m => ?_, List.nil_append]
  · simpa using fun k => apart k m
  · simpa using m

/-! ### An entry that is served (R28, R60) -/

/-- R28: the circuit that an entry is given, in slot `c` with grant width `w`. -/
def State.proposal (s : State) (e : Entry) (c : SlotId) (w : Nat) : Circuit :=
  { state := .proposed, role := .origin, tag := ⟨s.side, c, (s.slots.get c).gen⟩, answerSlot := none, near := e.port,
    far := e.far, cls := e.cls, reqWidth := e.reqWidth, minWidth := e.minWidth, reqTag := some e.tag,
    positions := newPositions (e.reserved.take w) (s.pool.take w), repairCount := 0, closeReason := none,
    everUp := false }

/-- R28: the SETUP that proposes the circuit. -/
def State.setupMsg (s : State) (e : Entry) (c : SlotId) (w : Nat) : Msg :=
  .setup ⟨s.side, c, (s.slots.get c).gen⟩ (byteOf e.far.val) (byteOf e.port.val) e.cls (byteOf e.reqWidth)
    (byteOf e.minWidth) ((numbered (s.pool.take w)).map fun pl => (byteOf pl.1, byteOf pl.2.val))

/-- R60: an entry that has been served into slot `c`. -/
def Entry.servedIn (c : SlotId) (e : Entry) : Entry := { e with slot := some c, reserved := [] }

/-- What `t` is where, from `s`, the entry `e` at place `n` has been served into slot `c` with grant width `w`. -/
structure State.Served (s t : State) (n : Nat) (e : Entry) (c : SlotId) (w : Nat) : Prop where
  circuit : ∀ d, t.circuit d = if d = c then some (s.proposal e c w) else s.circuit d
  gen : ∀ d, (t.slots.get d).gen = (s.slots.get d).gen
  other : ∀ i, i ∉ s.pool.take w → t.lane i = s.lane i
  taken : (s.pool.take w).Nodup → ∀ k i, (s.pool.take w)[k]? = some i →
    t.lane i = (s.lane i).claimedFor ⟨c, .current, k⟩
  pool : t.pool = s.pool.filter fun i => decide (i ∉ s.pool.take w)
  queue : t.queue = s.queue.set n (e.servedIn c)
  seeking : t.seeking = s.seeking
  ports : t.ports = s.ports
  arrivals : t.arrivals = s.arrivals
  sends : s.scratch.overflow = false → ∀ k, s.Room (k + 1) →
    t.scratch = s.scratch ∧ t.placed = s.placed ++ [s.setupMsg e c w] ∧ t.Room k

theorem State.served_serveInto (s : State) (n : Nat) (e : Entry) (c : SlotId) (w : Nat) :
    s.Served (s.serveInto n e c w) n e c w := by
  obtain ⟨ls, dq, claims, others, claimed⟩ :=
    State.foldl_claim c (numbered (s.pool.take w)) (s.setCircuit c (s.proposal e c w))
  rw [map_snd_numbered] at claims others claimed
  let t : State := { s.setCircuit c (s.proposal e c w) with
    lanes := ls, pool := s.pool.filter fun i => decide (i ∉ s.pool.take w), dwellQueue := dq,
    queue := s.queue.set n (e.servedIn c) }
  have form : s.serveInto n e c w = t.send (s.setupMsg e c w) := by
    have through (u : State) (h : (numbered (s.pool.take w)).foldl
        (fun s pl => s.takeLane pl.2 .claimed ⟨c, .current, pl.1⟩) (s.setCircuit c (s.proposal e c w)) = u) :
        s.serveInto n e c w = State.send { u with queue := u.queue.set n (e.servedIn c) } (s.setupMsg e c w) := by
      subst h
      rfl
    exact through _ claims
  have sends (v : s.scratch.overflow = false) (k : Nat) (room : s.Room (k + 1)) : (t.send (s.setupMsg e c w)).scratch
      = s.scratch ∧ (t.send (s.setupMsg e c w)).placed = s.placed ++ [s.setupMsg e c w]
      ∧ (t.send (s.setupMsg e c w)).Room k := by
    have room' : t.Room (k + 1) := room
    exact ⟨State.send_scratch t _ room'.lt, State.placed_send t _ room'.1 v room'.lt, room'.send _⟩
  rw [form]
  refine ⟨fun d => ?_, fun d => ?_, fun i no => ?_, fun nd k i m => ?_, State.send_pool .., State.send_queue ..,
    State.send_seeking .., State.send_ports .., State.send_arrivals .., sends⟩
  · rw [State.send_circuit]
    exact s.circuit_setCircuit c d _
  · rw [State.send_slots]
    exact s.gen_setCircuit c d _
  · rw [State.send_lane]
    exact others i no
  · rw [State.send_lane]
    exact claimed nd k i (mem_numbered m)

theorem Circuit.width_newPositions {x : Circuit} {hosts : List HostLane} {lanes : List LaneId}
    (h : x.positions = newPositions hosts lanes) (same : hosts.length = lanes.length) : x.width = lanes.length := by
  have held : (newPositions hosts lanes).filter (fun q => !q.dropped) = newPositions hosts lanes := by
    refine List.filter_eq_self.mpr fun q m => ?_
    obtain ⟨hl, -, rfl⟩ := List.mem_map.mp m
    rfl
  rw [Circuit.width, h, held]
  simp [newPositions, same]

theorem Circuit.lanes_newPositions {x : Circuit} {hosts : List HostLane} {lanes : List LaneId}
    (h : x.positions = newPositions hosts lanes) (same : hosts.length = lanes.length) : x.lanes = lanes := by
  rw [Circuit.lanes, h, newPositions, List.flatMap_map]
  conv_rhs => rw [← List.map_snd_zip (l₁ := hosts) (l₂ := lanes) (by omega), ← List.flatMap_pure_eq_map]
  rfl

/-- R52, R53: the grant width is no more than was asked, nor than the pool holds. -/
theorem State.grantWidth_le (s : State) (e : Entry) : s.grantWidth e ≤ e.reqWidth ∧ s.grantWidth e ≤ s.pool.length := by
  have usable : s.usable e.port ≤ s.pool.length := Nat.sub_le _ _
  unfold State.grantWidth
  dsimp only
  omega

/-! ### A scan in which one entry alone can be served (R54, R59) -/

/-- R59: a turn that serves nobody. -/
theorem State.scanTurn_idle {s : State} {cls : Cls} {n : Nat} (h : ∀ e c, s.queue[n]? = some e → s.vacantSlot = some c →
    ¬(e.cls = cls ∧ e.slot = none ∧ s.eligible n e = true ∧ s.admissible e = true)) : State.scanTurn cls s n = s := by
  unfold State.scanTurn
  split
  · rename_i e c entry vacant
    exact if_neg (h e c entry vacant)
  · rfl

/-- R54: the entry `e` at place `n` waits, and any other that waits stands behind it for the same two ports. -/
structure State.SoleWaiter (s : State) (n : Nat) (e : Entry) : Prop where
  entry : s.queue[n]? = some e
  waits : e.slot = none
  others : ∀ m o, s.queue[m]? = some o → o.slot = none → m = n ∨ n < m ∧ o.port = e.port ∧ o.far = e.far

/-- R54: an entry that stands behind another for the same two ports is not eligible. -/
theorem State.not_eligible {s : State} {m n : Nat} {o e : Entry} (nearer : n < m) (entry : s.queue[n]? = some e)
    (port : o.port = e.port) (far : o.far = e.far) : s.eligible m o ≠ true := by
  intro all
  have before : e ∈ s.queue.take m := List.mem_of_getElem? (i := n) (by rw [List.getElem?_take, if_pos nearer, entry])
  exact of_decide_eq_true (List.all_eq_true.mp all e before) ⟨port.symm, far.symm⟩

/-- R60: where an entry that waits alone is eligible and admissible, it is served into the lowest VACANT slot. -/
def State.serveAlone (s : State) (n : Nat) (e : Entry) : State :=
  match s.vacantSlot with
  | some c => if s.eligible n e = true ∧ s.admissible e = true then s.serveInto n e c (s.grantWidth e) else s
  | none => s

theorem State.SoleWaiter.scanTurn_other {s : State} {n : Nat} {e : Entry} (h : s.SoleWaiter n e) {cls : Cls} {m : Nat}
    (ne : m ≠ n ∨ cls ≠ e.cls) : State.scanTurn cls s m = s := by
  refine State.scanTurn_idle fun o c here _ => ?_
  rintro ⟨own, waits, eligible, -⟩
  rcases h.others m o here waits with rfl | ⟨behind, port, far⟩
  · obtain rfl := Option.some.inj (h.entry.symm.trans here)
    exact ne.elim (absurd rfl) fun ne => ne own.symm
  · exact State.not_eligible behind h.entry port far eligible

theorem State.SoleWaiter.scanTurn_own {s : State} {n : Nat} {e : Entry} (h : s.SoleWaiter n e) :
    State.scanTurn e.cls s n = s.serveAlone n e := by
  unfold State.scanTurn State.serveAlone
  rw [h.entry]
  cases s.vacantSlot with
  | none => rfl
  | some c => simp only [h.waits, true_and]

/-- R59: behind the service of the entry that waited alone, no turn serves anybody. -/
theorem State.SoleWaiter.scanTurn_after {s : State} {n : Nat} {e : Entry} (h : s.SoleWaiter n e) (cls : Cls) (m : Nat)
    (turn : s.serveAlone n e = s ∨ ∃ c, s.serveAlone n e = s.serveInto n e c (s.grantWidth e)) :
    State.scanTurn cls (s.serveAlone n e) m = s.serveAlone n e := by
  rcases turn with same | ⟨c, served⟩
  · rw [same]
    by_cases other : m ≠ n ∨ cls ≠ e.cls
    · exact h.scanTurn_other other
    · obtain ⟨rfl, rfl⟩ := not_or.mp other |>.imp not_not.mp not_not.mp
      rw [h.scanTurn_own, same]
  · have queue := (s.served_serveInto n e c (s.grantWidth e)).queue
    rw [served]
    have lt : n < s.queue.length := (List.getElem?_eq_some_iff.mp h.entry).1
    refine State.scanTurn_idle fun o d here _ => ?_
    rintro ⟨-, waits, eligible, -⟩
    rw [queue, List.getElem?_set] at here
    split at here
    · obtain rfl := Option.some.inj here
      cases waits
    · rename_i ne
      rcases h.others m o here waits with rfl | ⟨behind, port, far⟩
      · exact ne rfl
      · refine State.not_eligible (e := e.servedIn c) behind ?_ port far eligible
        rw [queue, List.getElem?_set_self lt]

theorem State.serveAlone_cases (s : State) (n : Nat) (e : Entry) :
    s.serveAlone n e = s ∨ ∃ c, s.vacantSlot = some c ∧ s.eligible n e = true ∧ s.admissible e = true
      ∧ s.serveAlone n e = s.serveInto n e c (s.grantWidth e) := by
  unfold State.serveAlone
  split
  · rename_i c vacant
    split
    · rename_i fit
      exact .inr ⟨c, vacant, fit.1, fit.2, rfl⟩
    · exact .inl rfl
  · exact .inl rfl

/-- A fold in which one element acts, once. -/
theorem List.foldl_of_once {σ α : Type} {f : σ → α → σ} {s t : σ} {a : α} (acts : f s a = t)
    (rests : ∀ b, b ≠ a → f s b = s) (done : ∀ b, f t b = t) {l : List α} (h : a ∈ l) : l.foldl f s = t := by
  have still (l : List α) : l.foldl f t = t := by
    induction l with
    | nil => rfl
    | cons b l ih => rw [List.foldl_cons, done, ih]
  induction l with
  | nil => cases h
  | cons b l ih =>
    rw [List.foldl_cons]
    by_cases e : b = a
    · rw [e, acts, still]
    · rw [rests b e]
      exact ih ((List.mem_cons.mp h).resolve_left (Ne.symm e))

/-- R59: the scan where one entry alone can be served. -/
theorem State.SoleWaiter.scan {s : State} {n : Nat} {e : Entry} (h : s.SoleWaiter n e) : s.scan = s.serveAlone n e := by
  have turn : s.serveAlone n e = s ∨ ∃ c, s.serveAlone n e = s.serveInto n e c (s.grantWidth e) :=
    (s.serveAlone_cases n e).imp_right fun ⟨c, _, _, _, served⟩ => ⟨c, served⟩
  have here : n ∈ List.range s.queue.length := List.mem_range.mpr (List.getElem?_eq_some_iff.mp h.entry).1
  have own : (List.range s.queue.length).foldl (State.scanTurn e.cls) s = s.serveAlone n e :=
    List.foldl_of_once h.scanTurn_own (fun m ne => h.scanTurn_other (.inl ne)) (fun m => h.scanTurn_after _ m turn) here
  have other (cls : Cls) (ne : cls ≠ e.cls) : (List.range s.queue.length).foldl (State.scanTurn cls) s = s :=
    List.foldl_of_once (h.scanTurn_other (.inr ne)) (fun m _ => h.scanTurn_other (.inr ne))
      (fun m => h.scanTurn_other (.inr ne)) here
  have after (cls : Cls) : (List.range s.queue.length).foldl (State.scanTurn cls) (s.serveAlone n e) = s.serveAlone n e :=
    List.foldl_of_once (h.scanTurn_after cls n turn) (fun m _ => h.scanTurn_after cls m turn)
      (fun m => h.scanTurn_after cls m turn) here
  unfold State.scan
  dsimp only
  cases cls : e.cls with
  | reserved => rw [← cls, own, after]
  | shared => rw [other .reserved (by rw [cls]; decide), ← cls, own]

end Sys2Proof.Machine
end

section
/-! SUPPORT. Sys2Proof/Proofs/OpenServed.lean: an OPEN served in its own event (R56, R60). -/

namespace Sys2Proof.Machine

open Sys2Proof

/-- R56: the entry of an OPEN that passed every check. -/
def State.openEntry (s : State) (h : PortId) (tag : Byte) (o : OpenParams) : Entry :=
  { port := h, tag := tag, far := o.far, cls := o.cls, reqWidth := o.reqWidth, minWidth := o.minWidth,
    patience := o.patience, arrival := s.arrivals, slot := none,
    reserved := (s.freeHostLanes h).take o.reqWidth, conflicts := 0 }

/-- R55: what the checks of an OPEN that passes them say of the trunk and of the port's host lanes. -/
theorem State.openRefusal_none {s : State} {h : PortId} {tag : Byte} {o : OpenParams}
    (pass : s.openRefusal h tag o = none) : s.trunk = .up ∧ o.reqWidth ≤ (s.freeHostLanes h).length := by
  unfold State.openRefusal at pass
  split_ifs at pass with _ trunk _ _ _ hosts
  exact ⟨not_not.mp trunk, Nat.not_lt.mp hosts⟩

theorem State.takeOpen_of_pass {s : State} {h : PortId} {tag : Byte} {params : List Byte} {o : OpenParams}
    (given : openParams params = some o) (pass : s.openRefusal h tag o = none) :
    s.takeOpen h tag params = (((s.appendEntry h tag o).scan).replyOpen h tag s.arrivals).finish := by
  simp only [State.takeOpen, given, pass]

/-- R56: an OPEN whose entry has been served by its scan. -/
theorem State.replyOpen_served {s : State} {h : PortId} {tag : Byte} {a : Half} {e : Entry} {c : SlotId} {x : Circuit}
    (found : s.queue.find? (fun e => e.port = h ∧ e.tag = tag) = some e) (slot : e.slot = some c)
    (circuit : s.circuit c = some x) :
    s.replyOpen h tag a = s.reply h .proceeding (halfBytes a ++ [byteOf c.val, byteOf x.width]) := by
  simp only [State.replyOpen, found, Option.bind_some, slot, circuit, Option.map_some, Option.getD_some]

theorem State.requestTag_of_asks {s : State} {h : PortId} {k : ReqKind} {tag : Byte} {ps : List Byte}
    (a : s.Asks h k tag ps) : s.requestTag h = tag := by
  simp only [State.requestTag, show (s.port h).link = _ from a]

/-- Settles O30: the entry waits alone, so that the scan is its service. -/
theorem openServedAtOnce : Obligations.OpenServedAtOnce := by
  unfold Obligations.OpenServedAtOnce
  intro s h tag params o c w g asks given pass empty matches' can clear vacant width minimum rfl
  obtain ⟨up, hosts⟩ := State.openRefusal_none pass
  let u := s.appendEntry h tag o
  let e := s.openEntry h tag o
  have queue : u.queue = [e] := by
    change s.queue ++ [e] = [e]
    rw [empty, List.nil_append]
  have grant : u.grantWidth e = w := by
    rw [width]
    change min o.reqWidth (min ((match o.cls with
      | .shared => s.params.ceilings.get h | .reserved => s.params.floors.get h) - s.holdings h) (s.usable h)) = _
    cases o.cls <;> rfl
  obtain ⟨asked, pooled⟩ : w ≤ o.reqWidth ∧ w ≤ s.pool.length := grant ▸ u.grantWidth_le e
  have alone : u.SoleWaiter 0 e := by
    refine ⟨by rw [queue]; rfl, rfl, fun m d at_ _ => .inl ?_⟩
    have := (List.getElem?_eq_some_iff.mp at_).1
    rw [queue] at this
    exact Nat.lt_one_iff.mp this
  have vacant' : u.vacantSlot = some c := vacant
  have fit : u.eligible 0 e = true ∧ u.admissible e = true := by
    refine ⟨rfl, ?_⟩
    have least : e.minWidth ≤ u.grantWidth e := grant ▸ minimum
    simp only [State.admissible, vacant', least, Option.isSome_some, and_true, decide_eq_true_eq]
    exact up
  have scan : u.scan = u.serveInto 0 e c w := by
    rw [alone.scan, State.serveAlone, vacant']
    exact (if_pos fit).trans (by rw [grant])
  have served := u.served_serveInto 0 e c w
  generalize u.serveInto 0 e c w = v at scan served
  have room : u.Room (0 + 1) := can.room
  obtain ⟨scratch, placed, -⟩ := served.sends (congrArg Scratch.overflow clear) 0 room
  have circuit : v.circuit c = some (u.proposal e c w) := (served.circuit c).trans (if_pos rfl)
  have lengths : (e.reserved.take w).length = (u.pool.take w).length := by
    change (((s.freeHostLanes h).take o.reqWidth).take w).length = (s.pool.take w).length
    simp only [List.length_take]
    omega
  have total : (u.pool.take w).length = w := List.length_take_of_le pooled
  have askedV : v.Asks h .openCircuit tag params := by
    change (v.ports.get h).link = _
    rw [served.ports]
    exact asks
  have queueV : v.queue = [e.servedIn c] := by rw [served.queue, queue]; rfl
  have run : exec (.openCircuit h) s = .next
      (v.answered h .openCircuit tag .proceeding (halfBytes s.arrivals ++ [byteOf c.val, byteOf w])) := by
    refine congrArg Host.Outcome.next ?_
    rw [State.takeRequest_of_asks asks, State.requestTag_of_asks asks, State.takeOpen_of_pass given pass]
    change ((u.scan).replyOpen h tag s.arrivals).finish = _
    rw [scan, State.replyOpen_served (e := e.servedIn c) (by rw [queueV]; simp [Entry.servedIn, e, State.openEntry]) rfl circuit,
      Circuit.width_newPositions rfl lengths, total, State.reply_of_asks askedV, State.finish_of_unmarked]
    exact scratch.trans clear
  have positions := map_newPositions lengths
  refine ⟨_, run, State.link_answered .., served.arrivals, ?_, ⟨_, circuit, rfl, rfl, rfl, rfl, rfl, rfl, rfl, rfl, rfl, rfl,
    ?_, positions.1⟩, fun k i at_ => ?_, served.other, ⟨_, queueV, rfl, rfl, rfl, rfl⟩, placed⟩
  · exact served.pool.trans (List.filter_not_mem_take matches'.1 w)
  · exact positions.2.trans ((List.take_take ..).trans (by rw [Nat.min_eq_left asked]))
  · have taken := served.taken (matches'.1.sublist (List.take_sublist ..)) k i at_
    change (v.lane i).state = _ ∧ (v.lane i).place = _ ∧ (v.lane i).run = _
    rw [taken]
    exact ⟨rfl, rfl, rfl⟩

end Sys2Proof.Machine
end

section
/-! SUPPORT. Sys2Proof/Proofs/Refuse.lean: REFUSE, by the state of the circuit and by its reason (R31, R32, R41, R64,
R65). -/

namespace Sys2Proof.Machine

open Sys2Proof

/-! ### Lanes that leave with nothing held against them (R15) -/

theorem State.foldl_leaveFenced_clean {s : State} {l : List LaneId} (clean : ∀ i ∈ l, (s.lane i).Clean) :
    l.foldl (State.leaveFenced false) s = s := by
  induction l with
  | nil => rfl
  | cons a l ih =>
    obtain ⟨failure, fence, peer⟩ := clean a List.mem_cons_self
    have stays : State.leaveFenced false s a = s := by simp [State.leaveFenced, failure, fence, peer]
    rw [List.foldl_cons, stays, ih fun i m => clean i (List.mem_cons_of_mem a m)]

/-- R15: lanes with nothing held against them all join the pool. -/
theorem State.freedAll_leaveAll {s : State} {l : List LaneId} (nd : l.Nodup) (out : ∀ i ∈ l, i ∉ s.pool)
    (clean : ∀ i ∈ l, (s.lane i).Clean) (unheld : ∀ i ∈ l, (s.lane i).state ≠ .quarantined) (e : PoolEnd) :
    s.FreedAll (s.leaveAll l false e) e l := by
  have all : (l.filter fun i => (s.lane i).state != .quarantined) = l :=
    List.filter_eq_self.mpr fun i m => by simpa using unheld i m
  rw [State.leaveAll_eq_freed, State.foldl_leaveFenced_clean clean, all]
  cases e
  · exact State.freedAll_head l nd s out
  · exact State.freedAll_tail l nd s out

/-! ### The lanes of a refused proposal (R31, R32) -/

theorem laneOfByte_byteOf (i : LaneId) : laneOfByte (byteOf i.val) = some i :=
  laneOfByte_of_lt (by
    have := i.isLt
    simp only [byteOf, BitVec.toNat_ofNat]
    omega)

/-- R32: the lanes that go to the tail, where LANE_UNAVAILABLE lists each lane once. -/
theorem tailReturns_unavailable {named : List LaneId} (nd : named.Nodup) (lanes : List LaneId) :
    tailReturns .laneUnavailable lanes (named.map fun i => byteOf i.val)
      = named.filter fun i => decide (i ∈ lanes) := by
  have listed : (named.map fun i => byteOf i.val).filterMap laneOfByte = named := by
    rw [List.filterMap_map]
    refine (List.filterMap_congr fun i _ => ?_).trans List.filterMap_some
    exact laneOfByte_byteOf i
  simp only [tailReturns, listed]
  rw [List.dedup_eq_self.mpr (List.nodup_reverse.mpr (nd.filter _)), List.reverse_reverse]

/-- What `u` is where, from `s`, the lanes have gone back to the pool: those in `tail` to its tail, the others to its
head. -/
structure State.Returned (s u : State) (lanes tail : List LaneId) : Prop where
  lane : ∀ j, u.lane j = if j ∈ lanes then (s.lane j).freed else s.lane j
  pool : u.pool = (lanes.filter fun i => decide (i ∉ tail)) ++ s.pool ++ tail
  alone : s.LeavesAlone u
  sends : u.sendQueue = s.sendQueue
  marks : ∃ b, u.scratch = { s.scratch with grown := b }

theorem State.returned_returnLanes {s : State} {x : Circuit} {why : RefuseReason} {listed : List Byte}
    {tail : List LaneId} (tails : tailReturns why x.lanes listed = tail) (nd : x.lanes.Nodup) (ndTail : tail.Nodup)
    (sub : ∀ i ∈ tail, i ∈ x.lanes) (out : ∀ i ∈ x.lanes, i ∉ s.pool)
    (held : ∀ i ∈ x.lanes, (s.lane i).state = .claimed ∧ (s.lane i).Clean) :
    s.Returned (s.returnLanes x why listed) x.lanes tail := by
  let l := x.lanes.filter fun i => decide (i ∉ tail)
  have inside (i) (m : i ∈ l) : i ∈ x.lanes := (List.mem_filter.mp m).1
  have apart (i) (m : i ∈ tail) : i ∉ l := fun k => of_decide_eq_true (List.mem_filter.mp k).2 m
  have unheld (i) (m : i ∈ x.lanes) : (s.lane i).state ≠ .quarantined := by rw [(held i m).1]; decide
  have heads : s.FreedAll (s.leaveAll l false .head) .head l :=
    State.freedAll_leaveAll (nd.filter _) (fun i m => out i (inside i m)) (fun i m => (held i (inside i m)).2)
      (fun i m => unheld i (inside i m)) .head
  have alone := s.leaveAll_rest l false .head
  have form : s.returnLanes x why listed = (s.leaveAll l false .head).leaveAll tail false .tail := by
    rw [State.returnLanes, tails]
  rw [form]
  generalize s.leaveAll l false .head = u at heads alone
  have kept (i) (m : i ∈ tail) : u.lane i = s.lane i := (heads.lane i).trans (if_neg (apart i m))
  have tails : u.FreedAll (u.leaveAll tail false .tail) .tail tail := by
    refine State.freedAll_leaveAll ndTail (fun i m => ?_) (fun i m => ?_) (fun i m => ?_) .tail
    · rw [heads.pool]
      exact fun k => (List.mem_append.mp k).elim (apart i m) (out i (sub i m))
    · rw [kept i m]
      exact (held i (sub i m)).2
    · rw [kept i m]
      exact unheld i (sub i m)
  obtain ⟨slots, queue, seeking, ports, params, trunk⟩ := alone
  obtain ⟨slots', queue', seeking', ports', params', trunk'⟩ := u.leaveAll_rest tail false .tail
  obtain ⟨b, marks⟩ := heads.marks
  obtain ⟨b', marks'⟩ := tails.marks
  refine ⟨fun j => ?_, by rw [tails.pool, heads.pool]; rfl, ⟨slots'.trans slots, queue'.trans queue,
    seeking'.trans seeking, ports'.trans ports, params'.trans params, trunk'.trans trunk⟩,
    tails.sends.trans heads.sends, b', by rw [marks', marks]⟩
  rw [tails.lane]
  by_cases last : j ∈ tail
  · rw [if_pos last, if_pos (sub j last), kept j last]
  · rw [if_neg last, heads.lane]
    by_cases own : j ∈ x.lanes
    · rw [if_pos own, if_pos (List.mem_filter.mpr ⟨own, decide_eq_true last⟩)]
    · rw [if_neg own, if_neg fun k => own (inside j k)]

/-- R5: the pool that the lanes have gone back to holds none twice. -/
theorem List.nodup_returned {lanes tail pool : List LaneId} (nd : lanes.Nodup) (ndTail : tail.Nodup) (ndPool : pool.Nodup)
    (sub : ∀ i ∈ tail, i ∈ lanes) (out : ∀ i ∈ lanes, i ∉ pool) :
    ((lanes.filter fun i => decide (i ∉ tail)) ++ pool ++ tail).Nodup := by
  have inside (i) (m : i ∈ lanes.filter fun i => decide (i ∉ tail)) : i ∈ lanes ∧ i ∉ tail :=
    (List.mem_filter.mp m).imp_right of_decide_eq_true
  refine ((nd.filter _).append ndPool fun i m k => out i (inside i m).1 k).append ndTail fun i m k => ?_
  exact (List.mem_append.mp m).elim (fun m => (inside i m).2 k) (out i (sub i k))

/-! ### The entry of a refused proposal (R64, R65) -/

/-- The end of an event in which a scan was due, and which neither lost the trunk nor asked for a dwell. -/
theorem State.finish_of_scan {s : State} (seeking : s.seeking = []) (due : s.scratch.scan = true) : ∃ k : Scratch,
    k.overflow = s.scratch.overflow ∧ k.grant = s.scratch.grant
    ∧ ((State.scan { s with scratch := k }).scratch = k → k.overflow = false → k.grant = false →
      s.finish = (State.scan { s with scratch := k }).unmark) := by
  have growth : ∃ k : Scratch, s.reportGrowth = { s with scratch := k } ∧ k.overflow = s.scratch.overflow
      ∧ k.grant = s.scratch.grant ∧ k.scan = true := by
    unfold State.reportGrowth
    split
    · rw [seeking]
      exact ⟨_, rfl, rfl, rfl, rfl⟩
    · exact ⟨s.scratch, rfl, rfl, rfl, due⟩
  obtain ⟨k, e, loss, grant, scan⟩ := growth
  refine ⟨k, loss, grant, fun keeps noLoss noGrant => ?_⟩
  unfold State.finish
  rw [e]
  simp only [scan, if_true, keeps, noGrant, State.overflowLoss, noLoss, State.unmark, Bool.false_eq_true, false_and,
    if_false]

/-- What `t` is where, from `u`, the entries that `leaves` names have left and the port `h` has been told `n`. -/
structure State.Leaves (u t : State) (leaves : Entry → Bool) (h : PortId) (n : Notice) : Prop where
  pool : t.pool = u.pool
  lane : ∀ i, t.lane i = u.lane i
  slots : t.slots = u.slots
  queue : ∀ o ∈ t.queue, leaves o = false
  notices : (u.port h).link ≠ .absent → (t.port h).notices = queueNotice (u.port h).notices n

theorem State.NobodyWaits.leaves {u : State} (nobody : u.NobodyWaits) (loss : u.scratch.overflow = false)
    (grant : u.scratch.grant = false) (leaves : Entry → Bool) (h : PortId) (n : Notice) :
    u.Leaves ((u.dropEntries leaves).notify h n).finish leaves h n := by
  obtain ⟨q, k, drops, rest⟩ := u.dropEntries_eq leaves
  rw [drops]
  have told := State.port_notify { u with queue := q, scratch := { u.scratch with scan := k } } h h n
  obtain ⟨ps, same⟩ := State.notify_eq { u with queue := q, scratch := { u.scratch with scan := k } } h n
  rw [same] at told ⊢
  have nobody' : State.NobodyWaits { u with queue := q, scratch := { u.scratch with scan := k }, ports := ps } :=
    ⟨nobody.1, fun o m => nobody.2 o (rest o m).1⟩
  rw [nobody'.finish loss grant]
  refine ⟨rfl, fun _ => rfl, rfl, fun o m => (rest o m).2, fun present => ?_⟩
  exact congrArg Port.notices (told.trans (if_pos ⟨rfl, present⟩))

/-- R65: an entry that is WAITING again, with host lanes reserved afresh. -/
def Entry.back (e : Entry) (hosts : List HostLane) : Entry := { e with slot := none, reserved := hosts.take e.reqWidth }

/-- R65: the queue behind the return of an entry. -/
def Entry.backIn (e : Entry) (hosts : List HostLane) (o : Entry) : Entry :=
  if o.port = e.port ∧ o.tag = e.tag then e.back hosts else o

theorem State.returnEntry_back {u : State} {e : Entry} (fits : e.reqWidth ≤ (u.freeHostLanes e.port).length) :
    u.returnEntry e = State.scanDue { u with queue := u.queue.map (e.backIn (u.freeHostLanes e.port)) } :=
  if_pos fits

theorem State.returnEntry_short {u : State} {e : Entry} (short : (u.freeHostLanes e.port).length < e.reqWidth) :
    u.returnEntry e = (u.dropEntries fun o => o.port = e.port ∧ o.tag = e.tag).notify e.port
      (.openFailed e.tag .hostLanesShort) :=
  if_neg (Nat.not_le.mpr short)

/-- R54, R65: where nobody waited, the entry that has returned waits alone. -/
theorem State.NobodyWaits.soleWaiter {u : State} (nobody : u.NobodyWaits) {e : Entry} (here : ∃ o ∈ u.queue,
    o.port = e.port ∧ o.tag = e.tag) (hosts : List HostLane) (k : Scratch) : ∃ n,
    State.SoleWaiter { u with queue := u.queue.map (e.backIn hosts), scratch := k } n (e.back hosts) := by
  let own (o : Entry) : Bool := decide (o.port = e.port ∧ o.tag = e.tag)
  let n := u.queue.findIdx own
  have lt : n < u.queue.length := List.findIdx_lt_length_of_exists (by simpa [own] using here)
  have first : own u.queue[n] = true := List.findIdx_getElem
  refine ⟨n, ?_, rfl, fun m o stands waits => ?_⟩
  · change (u.queue.map _)[n]? = _
    rw [List.getElem?_map, List.getElem?_eq_getElem lt]
    exact congrArg some (if_pos (of_decide_eq_true first))
  · have at_ : (u.queue.map (e.backIn hosts))[m]? = some o := stands
    clear stands
    rw [List.getElem?_map, Option.map_eq_some_iff] at at_
    obtain ⟨o', at_, rfl⟩ := at_
    obtain ⟨lt', rfl⟩ := List.getElem?_eq_some_iff.mp at_
    have mine : own u.queue[m] = true := by
      by_contra other
      have other : ¬(u.queue[m].port = e.port ∧ u.queue[m].tag = e.tag) := fun k => other (decide_eq_true k)
      rw [Entry.backIn, if_neg other] at waits
      exact nobody.2 _ (List.getElem_mem lt') waits
    rw [Entry.backIn, if_pos (of_decide_eq_true mine)]
    have least : n ≤ m := Nat.not_lt.mp fun less =>
      Bool.false_ne_true ((List.not_of_lt_findIdx less).symm.trans mine)
    exact (Nat.eq_or_lt_of_le least).imp Eq.symm fun less => ⟨less, rfl, rfl⟩

/-- What `t` is where, from `u`, the entry `e` has returned to the queue, and has been served at once or waits. -/
structure State.Back (u t : State) (e : Entry) (hosts : List HostLane) (o : Entry) : Prop where
  gen : ∀ d, (t.slots.get d).gen = (u.slots.get d).gen
  mem : o ∈ t.queue
  length : t.queue.length = u.queue.length
  same : o = { e with slot := o.slot, reserved := o.reserved }
  few : u.pool.length < e.minWidth → o.slot = none
  waits : o.slot = none → o.reserved = hosts.take e.reqWidth ∧ t.pool = u.pool ∧ ∀ i, t.lane i = u.lane i
  served : ∀ d, o.slot = some d → o.reserved = [] ∧ ∃ y w, t.circuit d = some y ∧ y.state = .proposed
    ∧ e.minWidth ≤ w ∧ y.lanes = u.pool.take w ∧ t.pool = u.pool.drop w ∧ ∀ i ∈ y.lanes, (t.lane i).state = .claimed

theorem State.NobodyWaits.back {u : State} (nobody : u.NobodyWaits) {e : Entry} {hosts : List HostLane}
    (here : ∃ o ∈ u.queue, o.port = e.port ∧ o.tag = e.tag) (fits : e.reqWidth ≤ hosts.length) (nd : u.pool.Nodup)
    (loss : u.scratch.overflow = false) (grant : u.scratch.grant = false) (room : u.Room 1) : ∃ o,
    u.Back (State.scanDue { u with queue := u.queue.map (e.backIn hosts) }).finish e hosts o := by
  let b := e.back hosts
  let v := State.scanDue { u with queue := u.queue.map (e.backIn hosts) }
  obtain ⟨k, loss', grant', ends⟩ := State.finish_of_scan (s := v) nobody.1 rfl
  obtain ⟨n, alone⟩ := nobody.soleWaiter here hosts k
  let u' : State := { u with queue := u.queue.map (e.backIn hosts), scratch := k }
  have ends : u'.scan.scratch = k → v.finish = u'.scan.unmark := fun keeps =>
    ends keeps (loss'.trans loss) (grant'.trans grant)
  have scan : u'.scan = u'.serveAlone n b := alone.scan
  have lt : n < u'.queue.length := (List.getElem?_eq_some_iff.mp alone.entry).1
  rcases u'.serveAlone_cases n b with idle | ⟨c, vacant, -, admissible, turn⟩
  · rw [scan, idle] at ends
    have ends : v.finish = u'.unmark := ends rfl
    refine ⟨b, ?_⟩
    change State.Back u v.finish e hosts b
    rw [ends]
    exact ⟨fun _ => rfl, List.mem_of_getElem? alone.entry, List.length_map .., rfl, fun _ => rfl,
      fun _ => ⟨rfl, rfl, fun _ => rfl⟩, fun d no => nomatch no⟩
  · have served := u'.served_serveInto n b c (u'.grantWidth b)
    obtain ⟨asked, pooled⟩ := u'.grantWidth_le b
    have least : e.minWidth ≤ u'.grantWidth b := by
      simp only [State.admissible, decide_eq_true_eq] at admissible
      exact admissible.2.2
    generalize u'.grantWidth b = w at *
    have room' : u'.Room (0 + 1) := room
    obtain ⟨marks, -, -⟩ := served.sends (loss'.trans loss) 0 room'
    rw [scan, turn] at ends
    have ends := ends marks
    have circuit := (served.circuit c).trans (if_pos rfl)
    have lengths : (b.reserved.take w).length = (u'.pool.take w).length := by
      have asked : w ≤ e.reqWidth := asked
      change ((hosts.take e.reqWidth).take w).length = _
      simp only [List.length_take]
      omega
    have lanes : (u'.proposal b c w).lanes = u.pool.take w := Circuit.lanes_newPositions rfl lengths
    refine ⟨b.servedIn c, ?_⟩
    change State.Back u v.finish e hosts _
    rw [ends]
    refine ⟨served.gen, ?_, ?_, rfl, fun few => absurd (least.trans pooled) (Nat.not_le.mpr few),
      fun no => (nomatch no), ?_⟩
    · change _ ∈ (u'.serveInto n b c w).queue
      rw [served.queue]
      exact List.mem_of_getElem? (List.getElem?_set_self lt)
    · change (u'.serveInto n b c w).queue.length = _
      rw [served.queue, List.length_set]
      exact List.length_map ..
    · rintro d h
      obtain rfl : c = d := Option.some.inj h
      refine ⟨rfl, _, w, circuit, rfl, least, lanes, served.pool.trans (List.filter_not_mem_take nd w), fun i m => ?_⟩
      rw [lanes] at m
      obtain ⟨j, at_⟩ := List.mem_iff_getElem?.mp m
      exact congrArg Lane.state (served.taken (nd.sublist (List.take_sublist ..)) j i at_)

/-! ### REFUSE (R31, R32, R41) -/

theorem State.takeRefuse_of {s : State} {g : Tag} {c : SlotId} {x : Circuit} (h : s.matchTag g = some (c, x))
    (why : RefuseReason) (listed : List Byte) : s.takeRefuse g why listed =
      if x.state = .proposed then s.refused c x why listed else if x.state = .closing then s.completeClose c else s := by
  unfold State.takeRefuse
  rw [h]
  dsimp only
  cases x.state <;> rfl

theorem State.refused_of {s : State} {c : SlotId} {x : Circuit} {e : Entry} (h : s.entryOfSlot c = some e)
    (why : RefuseReason) (listed : List Byte) :
    s.refused c x why listed = ((s.returnLanes x why listed).vacate c).entryRefused e why := by
  rw [State.refused, h]

theorem State.entryRefused_port {s : State} {e : Entry} {why : RefuseReason} {told : OpenFailReason}
    (h : openFailOf why = some told) : s.entryRefused e why =
      (s.dropEntries fun o => o.port = e.port ∧ o.tag = e.tag).notify e.port (.openFailed e.tag told) := by
  rw [State.entryRefused, h]

theorem State.entryRefused_lane {s : State} {e : Entry} {why : RefuseReason} (h : openFailOf why = none) :
    s.entryRefused e why = s.entryConflict e := by
  rw [State.entryRefused, h]

/-- R65 step 1: the entry whose conflict has been counted. -/
def Entry.conflicted (e : Entry) : Entry := { e with conflicts := e.conflicts + 1 }

theorem State.entryConflict_third {s : State} {e : Entry} (h : 3 ≤ e.conflicts + 1) : s.entryConflict e =
    (s.dropEntries fun o => o.port = e.port ∧ o.tag = e.tag).notify e.port (.openFailed e.tag .conflict) :=
  if_pos h

theorem State.entryConflict_early {s : State} {e : Entry} (h : e.conflicts + 1 < 3) :
    s.entryConflict e = s.returnEntry e.conflicted :=
  if_neg (Nat.not_le.mpr h)

theorem State.freeHostLanes_congr {s t : State} (slots : t.slots = s.slots) (queue : t.queue = s.queue) (h : PortId) :
    t.freeHostLanes h = s.freeHostLanes h := by
  have circuit : t.circuit = s.circuit := funext fun d => by rw [State.circuit, slots, State.circuit]
  have circuits : t.circuitsOf h = s.circuitsOf h := by rw [State.circuitsOf, State.circuits, circuit]; rfl
  have waiting : t.waitingOf h = s.waitingOf h := by rw [State.waitingOf, queue]; rfl
  unfold State.freeHostLanes
  rw [circuits, waiting]

/-- R23, R31: what stands once the lanes of a refused proposal have gone back and its slot is VACANT. -/
structure State.Reclaimed (s u : State) (c : SlotId) (lanes tail : List LaneId) : Prop where
  lane : ∀ j, u.lane j = if j ∈ lanes then (s.lane j).freed else s.lane j
  pool : u.pool = (lanes.filter fun i => decide (i ∉ tail)) ++ s.pool ++ tail
  slots : u.slots = s.slots.set c ⟨(s.slots.get c).gen + 1, none⟩
  queue : u.queue = s.queue
  ports : u.ports = s.ports
  nobody : s.NobodyWaits → u.NobodyWaits
  room : ∀ k, s.Room k → u.Room k
  loss : u.scratch.overflow = s.scratch.overflow
  grant : u.scratch.grant = s.scratch.grant

theorem State.Returned.vacate {s u : State} {lanes tail : List LaneId} (h : s.Returned u lanes tail) (c : SlotId) :
    s.Reclaimed (u.vacate c) c lanes tail := by
  obtain ⟨slots, queue, seeking, ports, -, trunk⟩ := h.alone
  obtain ⟨b, marks⟩ := h.marks
  refine ⟨h.lane, h.pool, ?_, queue, ports, fun nobody => ⟨?_, ?_⟩, fun k room => ⟨trunk.trans room.1, ?_⟩, ?_, ?_⟩
  · rw [← slots]
    rfl
  · change u.seeking.filter _ = []
    rw [seeking, nobody.1]
    rfl
  · rw [State.vacate_queue, queue]
    exact nobody.2
  · rw [State.vacate_sendQueue, h.sends]
    exact room.2
  · exact (congrArg Scratch.overflow marks).trans rfl
  · exact (congrArg Scratch.grant marks).trans rfl

theorem State.Reclaimed.hosts {s u : State} {c : SlotId} {lanes tail : List LaneId} (h : s.Reclaimed u c lanes tail)
    (p : PortId) : u.freeHostLanes p
      = State.freeHostLanes { s with slots := s.slots.set c ⟨(s.slots.get c).gen + 1, none⟩ } p :=
  State.freeHostLanes_congr (s := { s with slots := s.slots.set c ⟨(s.slots.get c).gen + 1, none⟩ }) h.slots h.queue p

theorem State.Reclaimed.slot {s u : State} {c : SlotId} {lanes tail : List LaneId} (h : s.Reclaimed u c lanes tail) :
    u.slots.get c = ⟨(s.slots.get c).gen + 1, none⟩ := by
  rw [h.slots]
  simp

/-- R64, R65: what the host is told of the entry, and what stands of its circuit. -/
theorem State.Reclaimed.ended {r u t : State} {c : SlotId} {lanes tail : List LaneId} (h : r.Reclaimed u c lanes tail)
    {e : Entry} {n : Notice} (gone : u.Leaves t (fun o => o.port = e.port ∧ o.tag = e.tag) e.port n) :
    t.pool = (lanes.filter fun i => decide (i ∉ tail)) ++ r.pool ++ tail
    ∧ (∀ i ∈ lanes, (t.lane i).state = .free ∧ (t.lane i).place = none)
    ∧ t.slots.get c = ⟨(r.slots.get c).gen + 1, none⟩ ∧ (∀ o ∈ t.queue, ¬ (o.port = e.port ∧ o.tag = e.tag))
    ∧ ((r.port e.port).link ≠ .absent → (t.port e.port).notices = queueNotice (r.port e.port).notices n) := by
  have port : u.port e.port = r.port e.port := congrArg (fun ps => ps.get e.port) h.ports
  refine ⟨gone.pool.trans h.pool, fun i m => ?_, by rw [gone.slots]; exact h.slot,
    fun o m => of_decide_eq_false (gone.queue o m), fun present => ?_⟩
  · rw [gone.lane, h.lane, if_pos m]
    exact ⟨rfl, rfl⟩
  · rw [← port] at present ⊢
    exact gone.notices present

/-- R15: lanes that a circuit holds in a state other than FREE are not in the pool. -/
theorem State.PoolMatches.out {s : State} (matching : s.PoolMatches) {l : List LaneId} {st : LaneState} (ne : st ≠ .free)
    (held : ∀ i ∈ l, (s.lane i).state = st ∧ (s.lane i).Clean) : ∀ i ∈ l, i ∉ s.pool := fun i m pooled =>
  ne ((held i m).1.symm.trans ((matching.2 i).mp pooled))

/-- R31, R41: the close of a withdrawn proposal completes with its lanes at the pool's head. -/
theorem State.completeClose_withdrawn {s : State} {c : SlotId} {x : Circuit} (h : s.circuit c = some x)
    (withdrawn : x.closeReason = some .withdrawn) (matching : s.PoolMatches) (nd : x.lanes.Nodup)
    (held : ∀ i ∈ x.lanes, (s.lane i).state = .releasing ∧ (s.lane i).Clean) :
    (s.completeClose c).pool = x.lanes ++ s.pool
    ∧ ∃ b, (s.completeClose c).scratch = { s.scratch with grown := b, scan := true } := by
  have freed : s.FreedAll (s.leaveAll x.lanes false .head) .head x.lanes :=
    State.freedAll_leaveAll nd (matching.out (by decide) held) (fun i m => (held i m).2)
      (fun i m => by rw [(held i m).1]; decide) .head
  obtain ⟨b, marks⟩ := freed.marks
  obtain ⟨ps, told⟩ := (s.leaveAll x.lanes false .head).notifyOpt_eq x.near
    (x.closeReason.bind (sentNotice c x))
  have form : s.completeClose c = State.vacate { s.leaveAll x.lanes false .head with ports := ps } c := by
    rw [State.completeClose_of h, ← told, withdrawn]
    rfl
  rw [form]
  exact ⟨freed.pool, b, congrArg (fun k : Scratch => { k with scan := true }) marks⟩

/-- Settles O46: the lanes go back and the slot is VACANT; the entry, which then waits alone, leaves, is served or stays. -/
theorem refuseTaken : Obligations.RefuseTaken := by
  rintro s r q a g why listed inOrder rfl clear
  have clear : (s.counted a).Unmarked := (s.scratch_counted a).trans clear
  have taken : exec (.refuse q a g why listed) s = .next ((s.counted a).received.takeRefuse g why listed).finish :=
    congrArg Host.Outcome.next (State.receive_inOrder inOrder a _)
  rw [taken]
  generalize s.counted a = r at *
  have idle := State.finish_received clear
  have marks := State.scratch_received clear
  refine ⟨fun unknown => ?_, fun c x known => ?_⟩
  · have unknown : r.received.matchTag g = none := unknown
    rw [State.takeRefuse, unknown]
    exact congrArg _ idle
  have known : r.received.matchTag g = some (c, x) := known
  have circuit := State.circuit_of_matchTag known
  rw [State.takeRefuse_of known]
  refine ⟨fun going => ?_, fun closing nobody => ⟨_, rfl, ?_, fun withdrawn matching nd held => ?_⟩,
    fun e told proposed nobody matching nd held entry => ?_⟩
  · rw [if_neg (by rcases going with h | h | h <;> rw [h] <;> decide),
      if_neg (by rcases going with h | h | h <;> rw [h] <;> decide), idle]
  · have vacates := State.vacates_completeClose circuit
    rw [if_neg (by rw [closing]; decide), if_pos closing, (vacates.nobody nobody).slot_finish (by rw [vacates.slot]),
      vacates.slot]
    rfl
  · have vacates := State.vacates_completeClose circuit
    obtain ⟨pool, b, same⟩ := State.completeClose_withdrawn (s := r.received) circuit withdrawn matching nd held
    rw [if_neg (by rw [closing]; decide), if_pos closing, (vacates.nobody nobody).finish
      (by rw [same, marks]) (by rw [same, marks])]
    exact pool
  · have out : ∀ i ∈ x.lanes, i ∉ r.pool := matching.out (by decide) held
    have reclaimed (tail : List LaneId) (tails : tailReturns why x.lanes listed = tail) (ndTail : tail.Nodup)
        (sub : ∀ i ∈ tail, i ∈ x.lanes) :
        r.received.Reclaimed ((r.received.returnLanes x why listed).vacate c) c x.lanes tail :=
      (State.returned_returnLanes (s := r.received) tails nd ndTail sub out held).vacate c
    rw [if_pos proposed, State.refused_of (s := r.received) entry]
    generalize (r.received.returnLanes x why listed).vacate c = u at reclaimed ⊢
    have leaves (tail : List LaneId) (back : r.received.Reclaimed u c x.lanes tail) (n : Notice) :=
      (back.nobody nobody).leaves (by rw [back.loss, marks]) (by rw [back.grant, marks])
        (fun o => o.port = e.port ∧ o.tag = e.tag) e.port n
    refine ⟨fun how => ?_, fun named tail pool hosts how hpool hhosts => ?_⟩
    · have far : openFailOf why = some told ∧ tailReturns why x.lanes listed = [] := by
        rcases how with ⟨rfl, rfl⟩ | ⟨rfl, rfl⟩ | ⟨rfl, rfl⟩ | ⟨rfl, rfl⟩ <;> exact ⟨rfl, rfl⟩
      have back := reclaimed [] far.2 List.nodup_nil (fun _ m => nomatch m)
      rw [State.entryRefused_port far.1]
      refine ⟨_, rfl, ?_⟩
      obtain ⟨pool, rest⟩ := back.ended (leaves [] back _)
      refine ⟨?_, rest⟩
      simpa using pool
    · have tails : openFailOf why = none ∧ tailReturns why x.lanes listed = tail ∧ tail.Nodup ∧ ∀ i ∈ tail, i ∈ x.lanes := by
        rcases how with ⟨rfl, rfl⟩ | ⟨rfl, ndNamed, rfl, rfl⟩
        · exact ⟨rfl, rfl, List.nodup_nil, fun _ m => nomatch m⟩
        · exact ⟨rfl, tailReturns_unavailable ndNamed x.lanes, ndNamed.filter _,
            fun i m => of_decide_eq_true (List.mem_filter.mp m).2⟩
      obtain ⟨lane, tails, ndTail, sub⟩ := tails
      have back := reclaimed tail tails ndTail sub
      have free : u.freeHostLanes e.port = hosts := (back.hosts e.port).trans hhosts.symm
      have upool : u.pool = pool := back.pool.trans hpool.symm
      rw [State.entryRefused_lane lane]
      refine ⟨fun which => ?_, fun early fits room => ?_⟩
      · have gone : u.entryConflict e = (u.dropEntries fun o => o.port = e.port ∧ o.tag = e.tag).notify e.port
            (.openFailed e.tag told) := by
          rcases which with ⟨third, rfl⟩ | ⟨early, short, rfl⟩
          · exact State.entryConflict_third third
          · rw [State.entryConflict_early early]
            exact State.returnEntry_short (e := e.conflicted) (by rw [← free] at short; exact short)
        rw [gone, hpool]
        exact ⟨_, rfl, back.ended (leaves tail back _)⟩
      · have ndPool : u.pool.Nodup := by
          rw [back.pool]
          exact List.nodup_returned nd ndTail matching.1 sub out
        have here : ∃ o ∈ u.queue, o.port = e.conflicted.port ∧ o.tag = e.conflicted.tag :=
          ⟨e, by rw [back.queue]; exact List.mem_of_find?_eq_some entry, rfl, rfl⟩
        have fits' : e.conflicted.reqWidth ≤ hosts.length := fits
        obtain ⟨o, h⟩ := (back.nobody nobody).back here fits' ndPool (by rw [back.loss, marks])
          (by rw [back.grant, marks]) (back.room 1 room)
        have stays : u.entryConflict e = State.scanDue { u with queue := u.queue.map (e.conflicted.backIn hosts) } := by
          rw [State.entryConflict_early early,
            State.returnEntry_back (e := e.conflicted) (by rw [← free] at fits'; exact fits')]
          rw [← free]
          rfl
        rw [stays]
        generalize (State.scanDue { u with queue := u.queue.map (e.conflicted.backIn hosts) }).finish = t at h ⊢
        obtain ⟨gen, mem, length, same, few, waits, served⟩ := h
        rw [upool] at few waits served
        refine ⟨_, o, rfl, (gen c).trans (congrArg Slot.gen back.slot), mem, length.trans (by rw [back.queue]; rfl),
          same, few, fun w => ?_, served⟩
        obtain ⟨reserved, pool', lanes⟩ := waits w
        refine ⟨reserved, pool', fun i m => ?_⟩
        rw [lanes, back.lane, if_pos m]
        exact ⟨rfl, rfl⟩

end Sys2Proof.Machine
end

section
/-! SUPPORT. Sys2Proof/Proofs/AmendTaken.lean: AMEND taken by an answering circuit: a lane taken by name, or a position
narrowed away (R34, R112, R116, R122). -/

namespace Sys2Proof.Machine

open Sys2Proof

/-! ### The lane taken by name (R7, R82, R112, R116) -/

/-- What `t` is where, from `s`, the lane `i` has been taken by name for the place `pl`, the circuit there stands as `y`,
and `m` has been placed; a grant behind it may have set presets. -/
structure State.TakesNamed (s t : State) (i : LaneId) (pl : Place) (y : Circuit) (m : Msg) : Prop where
  lane : ∃ a b, t.lane i = { (s.lane i).named s.params pl with preset := a, applied := b }
  other : ∀ j, j ≠ i → ∃ a b, t.lane j = { s.lane j with preset := a, applied := b }
  circuit : t.circuit pl.slot = some y
  circuits : ∀ d, d ≠ pl.slot → t.circuit d = s.circuit d
  pool : t.pool = s.pool.filter fun j => decide (j ≠ i)
  placed : t.placed = s.placed ++ [m]

theorem State.markRepairing_eq {s : State} {c : SlotId} {x : Circuit} (h : s.circuit c = some x) : ∃ sl ps,
    s.markRepairing c = { s with slots := sl, ports := ps } ∧ (sl.get c).circuit = some x.repairing
    ∧ ∀ d, d ≠ c → (sl.get d).circuit = s.circuit d := by
  have own := State.circuit_markRepairing h
  rw [State.markRepairing_of h] at own ⊢
  split at own
  · obtain ⟨ps, e⟩ := (s.setCircuit c x.repairing).notify_eq x.near (.circuitRepairing c)
    rw [if_pos ‹_›, e]
    rw [e] at own
    exact ⟨_, ps, rfl, own, fun d ne => (s.circuit_setCircuit c d _).trans (if_neg ne)⟩
  · rw [if_neg ‹_›]
    exact ⟨s.slots, s.ports, rfl, own, fun _ _ => rfl⟩

/-- R112, R116: the last acts for an accepted lane, and the end of their event. -/
theorem State.takesNamed {s : State} {c : SlotId} {x : Circuit} (hx : s.circuit c = some x) (can : s.CanSend)
    (marks : s.scratch = { received := true }) (n : Nat) (f : Position → Position) (i : LaneId) (role : LaneRole)
    (m : Msg) : s.TakesNamed ((((s.modPosition c n f).takeNamed i ⟨c, role, n⟩).markRepairing c).send m).finish i
      ⟨c, role, n⟩ (Circuit.repairing { x with positions := x.positions.modify n f }) m := by
  have circuit := State.circuit_modPosition s c c n f
  have circuits (d) (ne : d ≠ c) := (State.circuit_modPosition s c d n f).trans (if_neg ne)
  obtain ⟨sl, form⟩ : ∃ sl, s.modPosition c n f = { s with slots := sl } := s.modCircuit_eq _ _
  rw [if_pos rfl, hx] at circuit
  rw [form] at circuit circuits ⊢
  obtain ⟨ls, dq, g, form, lanes⟩ := State.takeNamed_eq { s with slots := sl } i ⟨c, role, n⟩
  rw [form]
  obtain ⟨sl', ps, form, own, others⟩ := State.markRepairing_eq (s := { s with
    slots := sl, lanes := ls, pool := s.pool.filter fun j => decide (j ≠ i), dwellQueue := dq,
    scratch := { s.scratch with grant := g } }) (c := c) (x := { x with positions := x.positions.modify n f }) circuit
  rw [form]
  let u : State := { s with
    slots := sl', ports := ps, lanes := ls, pool := s.pool.filter fun j => decide (j ≠ i), dwellQueue := dq,
    scratch := { s.scratch with grant := g } }
  have marks' : (u.sent m).scratch = { received := true, grant := g } := by
    change { s.scratch with grant := g } = _
    rw [marks]
  have sends : u.send m = u.sent m := State.send_of_canSend u m can (by change s.scratch.overflow = false; rw [marks])
  change s.TakesNamed (u.send m).finish _ _ _ _
  rw [sends, State.finish_of_unserved _ (by rw [marks']) (by rw [marks']) (by rw [marks'])]
  obtain ⟨ls', dq', us, form, granted⟩ := (u.sent m).ite_grant_eq
  rw [form]
  have grants (j) : ∃ a b, ls'.get j = { ls.get j with preset := a, applied := b } := by
    obtain ⟨a, b, e, -⟩ := granted j
    exact ⟨a, b, e⟩
  refine ⟨?_, fun j ne => ?_, own, fun d ne => (others d ne).trans (circuits d ne), rfl, State.placed_sent u m can.2.1⟩
  · obtain ⟨a, b, e⟩ := grants i
    exact ⟨a, b, e.trans (by rw [lanes, if_pos rfl]; rfl)⟩
  · obtain ⟨a, b, e⟩ := grants j
    exact ⟨a, b, e.trans (by rw [lanes, if_neg ne]; rfl)⟩

/-! ### The lane that is yielded, and the lane that makes room (R34, R116) -/

/-- R34, R116: a lane CLAIMED for another circuit is yielded; any other lane is left as it is. -/
theorem State.yields {s : State} {i : LaneId} {c : SlotId} (apart : (s.lane i).state = .claimed →
    ∀ pl, (s.lane i).place = some pl → pl.slot ≠ c) : ∃ sl,
    (if (s.lane i).state = .claimed then s.unname i else s) = { s with slots := sl }
    ∧ (sl.get c).circuit = s.circuit c
    ∧ ((s.lane i).state = .claimed → ∀ t : State, (∀ d, d ≠ c → t.circuit d = (sl.get d).circuit) → s.Yielded t i) := by
  split
  · rename_i claimed
    obtain ⟨sl, form⟩ : ∃ sl, s.unname i = { s with slots := sl } := by
      unfold State.unname
      split
      · exact ⟨_, rfl⟩
      · exact s.modCircuit_eq _ _
    have circuit (d) : (sl.get d).circuit = (s.unname i).circuit d := by rw [form]; rfl
    refine ⟨sl, form, ?_, fun _ t same pl z q place hz hq => ?_⟩
    · rw [circuit]
      cases place : (s.lane i).place with
      | none => rw [State.unname, place]
      | some pl =>
        rw [State.unname_of_place place, State.circuit_modPosition, if_neg (Ne.symm (apart claimed pl place))]
    · obtain ⟨z', q', hz', state, hq', gone⟩ := State.unnamed_unname hz hq i
      refine ⟨z', q', ?_, state, hq', gone pl.role (.inr place)⟩
      rw [same _ (apart claimed pl place), circuit, hz']
  · exact ⟨s.slots, rfl, rfl, fun claimed => absurd claimed ‹_›⟩

/-- R15: a lane without a failure reason that a fence holds is QUARANTINED as it leaves. -/
theorem State.leaveAll_held {s : State} {i : LaneId} (sound : (s.lane i).failure = none)
    (held : (s.lane i).localFence = true ∨ (s.lane i).peerFence = true) (e : PoolEnd) :
    s.leaveAll [i] false e = s.quarantine i := by
  have left : State.leaveFenced false s i = s.quarantine i := by simp [State.leaveFenced, sound, held]
  have gone : ([i].filter fun j => ((s.quarantine i).lane j).state != .quarantined) = [] := by
    simp [State.lane_quarantine, Lane.enter]
  unfold State.leaveAll
  simp only [List.foldl_cons, List.foldl_nil, left, gone, List.reverse_nil]
  cases e <;> rfl

/-- What `u` is where, from `s`, the current lane `o` of position `n` of the circuit `x` has left for another (R116). -/
structure State.Displaced (s u : State) (o : LaneId) (c : SlotId) (n : Nat) (x : Circuit) : Prop where
  form : ∃ sl ls pool dq, u = { s with slots := sl, lanes := ls, pool := pool, dwellQueue := dq }
  circuit : u.circuit c = some { x with positions := x.positions.modify n (Position.without .current) }
  circuits : ∀ d, d ≠ c → u.circuit d = s.circuit d
  own : u.lane o = ({ s.lane o with peerFence := true } : Lane).clearPlace.enter .quarantined
  other : ∀ j, j ≠ o → u.lane j = s.lane j

theorem State.displaced {s : State} {o : LaneId} {c : SlotId} {n : Nat} {x : Circuit} (hx : s.circuit c = some x)
    (place : (s.lane o).place = some ⟨c, .current, n⟩) (sound : (s.lane o).failure = none) :
    s.Displaced (((s.setPeerFence o).unname o).leaveAll [o] false .tail) o c n x := by
  have held := State.lane_setPeerFence s o o
  rw [if_pos rfl] at held
  have place' : ((s.setPeerFence o).lane o).place = some ⟨c, .current, n⟩ := by rw [held]; exact place
  have circuit := State.circuit_modPosition (s.setPeerFence o) c c n (Position.without .current)
  have circuits (d) (ne : d ≠ c) := (State.circuit_modPosition (s.setPeerFence o) c d n (Position.without .current)).trans
    (if_neg ne)
  rw [if_pos rfl, show (s.setPeerFence o).circuit c = some x from hx] at circuit
  obtain ⟨sl, form⟩ : ∃ sl, (s.setPeerFence o).modPosition c n (Position.without .current)
      = { s.setPeerFence o with slots := sl } := State.modCircuit_eq _ _ _
  rw [State.unname_of_place place']
  rw [form] at circuit circuits ⊢
  let v : State := { s.setPeerFence o with slots := sl }
  have heldV : v.lane o = { s.lane o with peerFence := true } := held
  have left : v.leaveAll [o] false .tail = v.quarantine o :=
    State.leaveAll_held ((congrArg Lane.failure heldV).trans sound) (.inr (congrArg Lane.peerFence heldV)) .tail
  change s.Displaced (v.leaveAll [o] false .tail) o c n x
  rw [left]
  refine ⟨⟨_, _, _, _, rfl⟩, circuit, circuits, ?_, fun j ne => ?_⟩
  · rw [State.lane_quarantine, if_pos rfl, heldV]
  · rw [State.lane_quarantine, if_neg ne]
    exact (State.lane_setPeerFence s o j).trans (if_neg ne)

theorem State.acceptAmend_up {s : State} {x : Circuit} {q : Position} (up : x.state = .up ∨ x.state = .repairing)
    (bare : q.replacement = none) (c : SlotId) (n : Nat) (i : LaneId) : s.acceptAmend c x n q i =
      ((((if (s.lane i).state = .claimed then s.unname i else s).modPosition c n fun q =>
        { q with repair := .replacing, replacement := some i }).takeNamed i ⟨c, .replacement, n⟩).markRepairing c).send
        (.amendReply x.tag (byteOf n) .ok) := by
  have upPhase : x.upPhase = true := decide_eq_true up
  simp only [State.acceptAmend, State.displace, upPhase, if_true, bare]

/-- R116: the state in which a lane accepted in the setup phase finds its position. -/
def State.clearedFor (s : State) (q : Position) (i : LaneId) : State :=
  let u := if (s.lane i).state = .claimed then s.unname i else s
  match q.current with
  | none => u
  | some o => ((u.setPeerFence o).unname o).leaveAll [o] false .tail

theorem State.acceptAmend_setup {s : State} {x : Circuit} (setup : x.state = .training) (q : Position) (c : SlotId)
    (n : Nat) (i : LaneId) : s.acceptAmend c x n q i =
      ((((s.clearedFor q i).modPosition c n fun q =>
        { q with repair := .replacing, current := some i }).takeNamed i ⟨c, .current, n⟩).markRepairing c).send
        (.amendReply x.tag (byteOf n) .ok) := by
  have upPhase : x.upPhase = false := by simp [Circuit.upPhase, setup]
  simp only [State.acceptAmend, State.displace, upPhase, Bool.false_eq_true, if_false, State.clearedFor] <;> rfl

/-- What `t` is where, from `r`, an AMEND for the lane `i` has been accepted at position `n` of the circuit `x`, which
stands as `y`. -/
structure State.AmendAccepted (r t : State) (i : LaneId) (c : SlotId) (n : Nat) (role : LaneRole) (x y : Circuit) :
    Prop where
  circuit : t.circuit c = some y
  lane : ∃ a b, t.lane i = { (r.lane i).named r.params ⟨c, role, n⟩ with preset := a, applied := b }
  placed : t.placed = r.placed ++ [.amendReply x.tag (byteOf n) .ok]
  yielded : (r.lane i).state = .claimed → r.Yielded t i

/-- R116: what an accepted AMEND does in the UP phase. -/
theorem State.amendAccepted_up {r : State} {i : LaneId} {c : SlotId} {n : Nat} {x : Circuit} {p : Position}
    (hx : r.circuit c = some x) (hp : x.positions[n]? = some p) (can : r.CanSend) (clear : r.Unmarked)
    (up : x.state = .up ∨ x.state = .repairing) (bare : p.replacement = none)
    (apart : (r.lane i).state = .claimed → ∀ pl, (r.lane i).place = some pl → pl.slot ≠ c) : ∃ y,
    r.AmendAccepted (r.received.acceptAmend c x n p i).finish i c n .replacement x y ∧ y.state = .repairing
    ∧ y.positions[n]? = some { p with repair := .replacing, replacement := some i }
    ∧ (r.received.acceptAmend c x n p i).finish.pool = r.pool.filter fun j => decide (j ≠ i) := by
  obtain ⟨sl, form, own, yielded⟩ := State.yields (s := r.received) apart
  have taken := State.takesNamed (s := { r.received with slots := sl }) (own.trans hx) can (State.scratch_received clear)
    n (fun q => { q with repair := .replacing, replacement := some i }) i .replacement (.amendReply x.tag (byteOf n) .ok)
  rw [State.acceptAmend_up up bare, form]
  refine ⟨_, ⟨taken.circuit, taken.lane, taken.placed, fun claimed => yielded claimed _ taken.circuits⟩, ?_, ?_, taken.pool⟩
  · unfold Circuit.repairing
    rcases up with up | up <;> simp [up]
  · change (x.positions.modify n _)[n]? = _
    simp [hp]

/-- R116: what an accepted AMEND does in the setup phase. -/
theorem State.amendAccepted_setup {r : State} {i : LaneId} {c : SlotId} {n : Nat} {x : Circuit} {p : Position}
    (hx : r.circuit c = some x) (hp : x.positions[n]? = some p) (can : r.CanSend) (clear : r.Unmarked)
    (setup : x.state = .training) (sound : ∀ o, p.current = some o → o ≠ i ∧ (r.lane o).failure = none
      ∧ (r.lane o).place = some ⟨c, .current, n⟩)
    (apart : (r.lane i).state = .claimed → ∀ pl, (r.lane i).place = some pl → pl.slot ≠ c) : ∃ y,
    r.AmendAccepted (r.received.acceptAmend c x n p i).finish i c n .current x y ∧ y.state = .training
    ∧ y.positions[n]? = some { p with repair := .replacing, current := some i }
    ∧ ∀ o, p.current = some o → ((r.received.acceptAmend c x n p i).finish.lane o).state = .quarantined
      ∧ ((r.received.acceptAmend c x n p i).finish.lane o).peerFence = true
      ∧ ((r.received.acceptAmend c x n p i).finish.lane o).place = none := by
  obtain ⟨sl, form, own, yielded⟩ := State.yields (s := r.received) apart
  have circuit : State.circuit { r.received with slots := sl } c = some x := own.trans hx
  have setup' (z : Circuit) (same : z.state = .training) : z.repairing.state = .training := by
    simp [Circuit.repairing, same]
  rw [State.acceptAmend_setup setup]
  cases current : p.current with
  | none =>
    have cleared : r.received.clearedFor p i = { r.received with slots := sl } := by
      rw [State.clearedFor, form, current]
    have taken := State.takesNamed circuit can (State.scratch_received clear) n
      (fun q => { q with repair := .replacing, current := some i }) i .current (.amendReply x.tag (byteOf n) .ok)
    rw [cleared]
    refine ⟨_, ⟨taken.circuit, taken.lane, taken.placed, fun claimed => yielded claimed _ taken.circuits⟩,
      setup' _ setup, ?_, fun o no => nomatch no⟩
    change (x.positions.modify n _)[n]? = _
    simp [hp]
  | some o =>
    obtain ⟨apart, failure, place⟩ := sound o current
    have gone := State.displaced (s := { r.received with slots := sl }) circuit place failure
    have cleared : r.received.clearedFor p i
        = ((State.setPeerFence { r.received with slots := sl } o).unname o).leaveAll [o] false .tail := by
      rw [State.clearedFor, form, current]
    rw [cleared]
    generalize ((State.setPeerFence { r.received with slots := sl } o).unname o).leaveAll [o] false .tail = u at gone ⊢
    obtain ⟨⟨sl', ls, pool, dq, rfl⟩, circuit', circuits, left, other⟩ := gone
    have taken := State.takesNamed circuit' can (State.scratch_received clear) n
      (fun q => { q with repair := .replacing, current := some i }) i .current (.amendReply x.tag (byteOf n) .ok)
    refine ⟨_, ⟨taken.circuit, ?_, taken.placed, fun claimed => yielded claimed _ fun d ne =>
      (taken.circuits d ne).trans (circuits d ne)⟩, setup' _ setup, ?_, fun o' same => ?_⟩
    · obtain ⟨a, b, e⟩ := taken.lane
      exact ⟨a, b, e.trans (by rw [other i (Ne.symm apart)]; rfl)⟩
    · change ((x.positions.modify n _).modify n _)[n]? = _
      simp [hp, Position.without]
    · obtain rfl := Option.some.inj same
      obtain ⟨a, b, e⟩ := taken.other o apart
      rw [e, left]
      exact ⟨rfl, rfl, rfl⟩

/-! ### The position narrowed away (R15, R121, R122) -/

/-- What `t` keeps of `s` where the lane `k` has left with nothing presumed of its peer. -/
structure State.LeftOne (s t : State) (k : LaneId) : Prop where
  other : ∀ j, j ≠ k → t.lane j = s.lane j
  held : (s.lane k).state = .quarantined → (s.lane k).place = none → (t.lane k).state = .quarantined
    ∧ (t.lane k).place = none ∧ ((s.lane k).localFence = true → (t.lane k).localFence = true)
    ∧ (t.lane k).peerFence = (s.lane k).peerFence
  freed : (s.lane k).state ≠ .quarantined → (s.lane k).Clean → t.lane k = (s.lane k).freed
  placed : ∃ more, t.placed = s.placed ++ more
  alone : s.LeavesAlone t
  marks : ∃ b, t.scratch = { s.scratch with grown := b }

theorem State.leftOne_leaveAll {s : State} (k : LaneId) (v : s.scratch.overflow = false) (room : s.Room 1) :
    s.LeftOne (s.leaveAll [k] false .tail) k := by
  have alone := s.leaveAll_rest [k] false .tail
  cases why : (s.lane k).failure with
  | some w =>
    rw [State.leaveAll_failed why] at alone ⊢
    obtain ⟨marks, placed⟩ := s.setLocalFence_room k (s.ownerTag k) (.failure w) v room.lt
    have lane (j) : ((s.setLocalFence k (s.ownerTag k) (.failure w)).quarantine k).lane j
        = if j = k then ((s.lane k).fenceLocally s.params).clearPlace.enter .quarantined else s.lane j := by
      rw [State.lane_quarantine, State.lane_setLocalFence, State.lane_setLocalFence]
      split
      · rw [if_pos rfl]
      · rfl
    refine ⟨fun j ne => (lane j).trans (if_neg ne), fun _ _ => ?_, fun _ clean => ?_,
      ⟨_, (State.placed_quarantine ..).trans placed⟩, alone, s.scratch.grown, (State.quarantine_scratch ..).trans marks⟩
    · rw [lane, if_pos rfl]
      exact ⟨rfl, rfl, fun _ => rfl, rfl⟩
    · rw [clean.1] at why
      cases why
  | none =>
    by_cases fence : (s.lane k).localFence = true ∨ (s.lane k).peerFence = true
    · rw [State.leaveAll_held why fence] at alone ⊢
      have lane (j) := s.lane_quarantine k j
      refine ⟨fun j ne => (lane j).trans (if_neg ne), fun _ _ => ?_, fun _ clean => ?_, ⟨[], (List.append_nil _).symm⟩,
        alone, s.scratch.grown, rfl⟩
      · rw [lane, if_pos rfl]
        exact ⟨rfl, rfl, id, rfl⟩
      · rcases fence with f | f
        · exact absurd (clean.2.1.symm.trans f) Bool.false_ne_true
        · exact absurd (clean.2.2.symm.trans f) Bool.false_ne_true
    · have clean : (s.lane k).Clean := ⟨why, by simpa using fun e => fence (.inl e), by simpa using fun e => fence (.inr e)⟩
      have stays : [k].foldl (State.leaveFenced false) s = s :=
        State.foldl_leaveFenced_clean fun i m => by rw [List.mem_singleton.mp m]; exact clean
      by_cases quarantined : (s.lane k).state = .quarantined
      · have same : s.leaveAll [k] false .tail = s := by
          rw [State.leaveAll_eq_freed, stays]
          simp [quarantined]
        rw [same]
        exact ⟨fun _ _ => rfl, fun _ place => ⟨quarantined, place, id, rfl⟩, fun no => absurd quarantined no,
          ⟨[], (List.append_nil _).symm⟩, ⟨rfl, rfl, rfl, rfl, rfl, rfl⟩, s.scratch.grown, rfl⟩
      · have freed : s.leaveAll [k] false .tail = State.freeLane .tail s k := by
          rw [State.leaveAll_eq_freed, stays]
          simp [quarantined]
        rw [freed] at alone ⊢
        have lane (j) := State.lane_freeLane .tail s k j
        exact ⟨fun j ne => (lane j).trans (if_neg ne), fun yes => absurd yes quarantined,
          fun _ _ => (lane k).trans (if_pos rfl), ⟨[], (List.append_nil _).symm⟩, alone, true, rfl⟩

/-- R119, R121: what settling a circuit leaves as it was; the host may be told. -/
theorem State.settle_keeps {s : State} {c : SlotId} {x : Circuit} (h : s.circuit c = some x) :
    s.NoticeAlone (s.settle c) ∧ (∃ y, (s.settle c).circuit c = some y ∧ y.positions = x.positions)
    ∧ ∀ g, ((s.settle c).port g).notices = (s.port g).notices
      ∨ ∃ n, ((s.settle c).port g).notices = queueNotice (s.port g).notices n := by
  have told (y : Circuit) (same : y.positions = x.positions) (n : Notice) :
      s.NoticeAlone ((s.setCircuit c y).notify x.near n)
      ∧ (∃ z, ((s.setCircuit c y).notify x.near n).circuit c = some z ∧ z.positions = x.positions)
      ∧ ∀ g, (((s.setCircuit c y).notify x.near n).port g).notices = (s.port g).notices
        ∨ ∃ n', (((s.setCircuit c y).notify x.near n).port g).notices = queueNotice (s.port g).notices n' := by
    refine ⟨s.noticeAlone_setCircuit_notify c y x.near n, ⟨y, ?_, same⟩, fun g => ?_⟩
    · rw [State.notify_circuit]
      exact State.circuit_setCircuit_self s c y
    · rw [State.port_notify]
      split
      · rename_i here
        rw [here.1]
        exact .inr ⟨n, rfl⟩
      · exact .inl rfl
  have idle : s.NoticeAlone s ∧ (∃ y, s.circuit c = some y ∧ y.positions = x.positions)
      ∧ ∀ g, (s.port g).notices = (s.port g).notices ∨ ∃ n, (s.port g).notices = queueNotice (s.port g).notices n :=
    ⟨⟨rfl, rfl, rfl, rfl, rfl, rfl, rfl, rfl, rfl, rfl, rfl, rfl, fun _ => rfl⟩, ⟨x, h, rfl⟩, fun _ => .inl rfl⟩
  have form : s.settle c = if x.state = .repairing ∧ s.inRepair x = false then
      (s.setCircuit c { x with state := .up }).notify x.near (.circuitRepaired c) else s.upDecision c := by
    rw [State.settle, h]
  rw [form]
  split
  · exact told { x with state := .up } rfl _
  · rw [State.upDecision_of h]
    split
    · exact told x.begunUp rfl _
    · exact idle

/-- R121: a position that has been dropped. -/
def Position.narrowed (q : Position) : Position :=
  { q.endRepair with dropped := true, current := none, replacement := none }

/-- R121: a circuit whose position `n` has been dropped. -/
def Circuit.narrowed (x : Circuit) (n : Nat) : Circuit := { x with positions := x.positions.modify n Position.narrowed }

/-- R25, R121: the width falls by one. -/
theorem Circuit.width_narrowed {x : Circuit} {n : Nat} {p : Position} (hp : x.positions[n]? = some p)
    (here : p.dropped = false) : (x.narrowed n).width = x.width - 1 := by
  obtain ⟨lt, at_⟩ := List.getElem?_eq_some_iff.mp hp
  have flags : (x.narrowed n).positions.map (·.dropped) = (x.positions.map (·.dropped)).set n true := by
    refine List.ext_getElem? fun m => ?_
    rw [Circuit.narrowed, List.getElem?_map, List.getElem?_modify, List.getElem?_set, List.getElem?_map]
    by_cases e : n = m
    · subst e
      simp [lt, Position.narrowed]
    · simp [e]
  rw [Circuit.width_eq_count, flags, List.count_set (by simpa using lt), ← Circuit.width_eq_count]
  simp [at_, here]

/-- What `t` is where, from `s`, the current lane of a dropped position has left (R15, R121). -/
structure State.CurrentLeft (s t : State) (current : Option LaneId) : Prop where
  own : ∀ i, current = some i → s.Replaced t i
  other : ∀ j, current ≠ some j → t.lane j = s.lane j
  alone : s.LeavesAlone t
  marks : t.scratch = s.scratch
  room : t.Room 1

theorem State.currentLeft {s : State} (v : s.scratch.overflow = false) (room : s.Room 2) (current : Option LaneId) :
    s.CurrentLeft (s.leaveAll current.toList true .tail) current := by
  cases current with
  | none =>
    exact ⟨fun _ no => (nomatch no), fun _ _ => rfl, ⟨rfl, rfl, rfl, rfl, rfl, rfl⟩, rfl, room.mono (by omega)⟩
  | some i =>
    obtain ⟨own, other, -, -, marks⟩ := s.replaced_leaveAll i v (room.mono (by omega)) .tail
    have alone := s.leaveAll_rest [i] true .tail
    refine ⟨fun j same => ?_, fun j ne => other j fun e => ne (e ▸ rfl), alone, marks, ?_⟩
    · obtain rfl := Option.some.inj same
      exact own
    · change (s.leaveAll [i] true .tail).Room 1
      cases why : (s.lane i).failure with
      | none =>
        rw [State.leaveAll_presumed why]
        exact State.Room.mono (s := s) room (by omega)
      | some w =>
        rw [State.leaveAll_failed why]
        obtain ⟨trunk, sends⟩ := room.setLocalFence i (s.ownerTag i) (.failure w)
        exact ⟨(State.quarantine_trunk ..).trans trunk, by rw [State.quarantine_sendQueue]; exact sends⟩

/-- What `t` is where, from `s`, both lanes of a dropped position have left (R15, R121). -/
structure State.BothLeft (s t : State) (p : Position) : Prop where
  current : ∀ i, p.current = some i → (t.lane i).state = .quarantined ∧ (t.lane i).place = none
    ∧ (∀ w, (s.lane i).failure = some w → (t.lane i).localFence = true ∧ .fence (byteOf i.val) (.failure w) ∈ t.placed)
    ∧ ((s.lane i).failure = none → (t.lane i).peerFence = true)
  replacement : ∀ k, p.replacement = some k → p.current ≠ some k → (s.lane k).state ≠ .quarantined → (s.lane k).Clean →
    t.lane k = (s.lane k).freed
  alone : s.LeavesAlone t
  loss : t.scratch.overflow = s.scratch.overflow
  grant : t.scratch.grant = s.scratch.grant

theorem State.bothLeft {s : State} (v : s.scratch.overflow = false) (room : s.Room 2) (p : Position) :
    s.BothLeft ((s.leaveAll p.current.toList true .tail).leaveAll p.replacement.toList false .tail) p := by
  have first := State.currentLeft v room p.current
  generalize s.leaveAll p.current.toList true .tail = u at first ⊢
  have held (i) (h : p.current = some i) : (u.lane i).state = .quarantined ∧ (u.lane i).place = none
      ∧ (∀ w, (s.lane i).failure = some w → (u.lane i).localFence = true ∧ .fence (byteOf i.val) (.failure w) ∈ u.placed)
      ∧ ((s.lane i).failure = none → (u.lane i).peerFence = true) := by
    obtain ⟨state, place, presumed, fenced⟩ := first.own i h
    refine ⟨state, place, fun w why => ?_, fun sound => (presumed sound).1⟩
    obtain ⟨fence, placed⟩ := fenced w why
    exact ⟨fence, by rw [placed]; simp⟩
  cases replacement : p.replacement with
  | none =>
    exact ⟨held, fun k same => (nomatch replacement.symm.trans same), first.alone, by rw [← first.marks]; rfl, by rw [← first.marks]; rfl⟩
  | some k =>
    have second := State.leftOne_leaveAll (s := u) k (by rw [first.marks]; exact v) first.room
    change s.BothLeft (u.leaveAll [k] false .tail) p
    generalize u.leaveAll [k] false .tail = t at second ⊢
    obtain ⟨more, placed⟩ := second.placed
    obtain ⟨b, marks⟩ := second.marks
    obtain ⟨slots, queue, seeking, ports, params, trunk⟩ := first.alone
    obtain ⟨slots', queue', seeking', ports', params', trunk'⟩ := second.alone
    refine ⟨fun i h => ?_, fun j same other state clean => ?_, ⟨slots'.trans slots, queue'.trans queue,
      seeking'.trans seeking, ports'.trans ports, params'.trans params, trunk'.trans trunk⟩,
      by rw [marks, ← first.marks], by rw [marks, ← first.marks]⟩
    · obtain ⟨state, place, fenced, presumed⟩ := held i h
      have kept : (t.lane i).state = .quarantined ∧ (t.lane i).place = none
          ∧ ((u.lane i).localFence = true → (t.lane i).localFence = true)
          ∧ (t.lane i).peerFence = (u.lane i).peerFence := by
        by_cases e : i = k
        · subst e
          exact second.held state place
        · rw [second.other i e]
          exact ⟨state, place, id, rfl⟩
      obtain ⟨state, place, localFence, peerFence⟩ := kept
      refine ⟨state, place, fun w why => ⟨localFence (fenced w why).1, ?_⟩, fun sound => peerFence.trans (presumed sound)⟩
      rw [placed]
      exact List.mem_append_left _ (fenced w why).2
    · obtain rfl := Option.some.inj (replacement.symm.trans same)
      have own := first.other k other
      rw [← own] at state clean ⊢
      exact second.freed state clean

/-- R121: the state behind a dropped position, before the circuit is settled. -/
def State.cleared (s : State) (c : SlotId) (n : Nat) (p : Position) : State :=
  let u := s.modPosition c n Position.narrowed
  (State.leaveAll { u with seeking := u.seeking.filter fun cp => decide (cp ≠ (c, n)) } p.current.toList true
    .tail).leaveAll p.replacement.toList false .tail

theorem State.cleared_left {s : State} {c : SlotId} {n : Nat} {x : Circuit} (hx : s.circuit c = some x)
    (v : s.scratch.overflow = false) (room : s.Room 2) (p : Position) : (s.cleared c n p).circuit c = some (x.narrowed n)
    ∧ ∃ u : State, (∀ i, u.lane i = s.lane i) ∧ u.queue = s.queue
      ∧ u.seeking = (s.seeking.filter fun cp => decide (cp ≠ (c, n))) ∧ u.ports = s.ports ∧ u.scratch = s.scratch
      ∧ u.BothLeft (s.cleared c n p) p := by
  have circuit := State.circuit_modPosition s c c n Position.narrowed
  rw [if_pos rfl, hx] at circuit
  obtain ⟨sl, form⟩ : ∃ sl, s.modPosition c n Position.narrowed = { s with slots := sl } := s.modCircuit_eq _ _
  unfold State.cleared
  rw [form] at circuit ⊢
  let u : State := { s with slots := sl, seeking := s.seeking.filter fun cp => decide (cp ≠ (c, n)) }
  have left : u.BothLeft ((u.leaveAll p.current.toList true .tail).leaveAll p.replacement.toList false .tail) p :=
    State.bothLeft (s := u) v room p
  refine ⟨?_, u, fun _ => rfl, rfl, rfl, rfl, rfl, left⟩
  obtain ⟨slots, -⟩ := left.alone
  rw [State.circuit, slots]
  exact circuit

/-- R121, R122: a position is dropped, a host that had the circuit UP is told, and the circuit is settled. -/
theorem State.dropPosition_of {s : State} {c : SlotId} {n : Nat} {x : Circuit} {p : Position} (hx : s.circuit c = some x)
    (hp : x.positions[n]? = some p) (here : p.dropped = false) (gone : (s.cleared c n p).circuit c = some (x.narrowed n)) :
    s.dropPosition c n = (if x.everUp = true then (s.cleared c n p).notify x.near (.circuitNarrowed c (x.width - 1))
      else s.cleared c n p).settle c := by
  rw [State.dropPosition, State.position_eq hx, hp]
  change State.settle (match (s.cleared c n p).circuit c with | none => s.cleared c n p | some x => _) c = _
  rw [gone, ← Circuit.width_narrowed hp here]
  rfl

theorem queueNotice_of_lt {q : List Notice} (n : Notice) (h : q.length < 15) : queueNotice q n = q ++ [n] := if_pos h

/-- What `t` is where, from `r`, the position `n` of the circuit `x` has been narrowed away (R122). -/
structure State.Narrows (r t : State) (c : SlotId) (n : Nat) (x : Circuit) (p : Position) : Prop where
  circuit : ∃ y, t.circuit c = some y ∧ y.positions = (x.narrowed n).positions
  current : ∀ i, p.current = some i → (t.lane i).state = .quarantined ∧ (t.lane i).place = none
    ∧ (∀ w, (r.lane i).failure = some w → (t.lane i).localFence = true ∧ .fence (byteOf i.val) (.failure w) ∈ t.placed)
    ∧ ((r.lane i).failure = none → (t.lane i).peerFence = true)
  replacement : ∀ k, p.replacement = some k → p.current ≠ some k → (r.lane k).state ≠ .quarantined → (r.lane k).Clean →
    t.lane k = (r.lane k).freed
  notices : x.everUp = true → (r.port x.near).link ≠ .absent → (r.port x.near).notices.length < 14 →
    ∃ back, (t.port x.near).notices = (r.port x.near).notices ++ .circuitNarrowed c (x.width - 1) :: back

theorem State.narrows {r : State} {c : SlotId} {n : Nat} {x : Circuit} {p : Position} (hx : r.circuit c = some x)
    (hp : x.positions[n]? = some p) (here : p.dropped = false) (can : r.CanSend) (clear : r.Unmarked)
    (nobody : r.NobodyWaits) : r.Narrows (r.received.dropPosition c n).finish c n x p := by
  have marks := State.scratch_received clear
  have room : r.received.Room 2 := by
    obtain ⟨up, empty, -⟩ := can
    exact ⟨up, by change r.sendQueue.length + 2 ≤ _; rw [empty]; decide⟩
  obtain ⟨gone, u, lane, queue, seeking, ports, marks', left⟩ := State.cleared_left (s := r.received) (n := n) hx
    (by rw [marks]) room p
  rw [State.dropPosition_of (s := r.received) hx hp here gone]
  generalize r.received.cleared c n p = v at gone left ⊢
  obtain ⟨-, vqueue, vseeking, vports, -⟩ := left.alone
  have told : ∃ ps, (if x.everUp = true then v.notify x.near (.circuitNarrowed c (x.width - 1)) else v)
      = { v with ports := ps } := by
    split
    · exact v.notify_eq _ _
    · exact ⟨v.ports, rfl⟩
  have first (up : x.everUp = true) (present : (r.port x.near).link ≠ .absent) :
      ((if x.everUp = true then v.notify x.near (.circuitNarrowed c (x.width - 1)) else v).port x.near).notices
        = queueNotice (r.port x.near).notices (.circuitNarrowed c (x.width - 1)) := by
    have port : v.port x.near = r.port x.near := congrArg (fun ps => ps.get x.near) (vports.trans ports)
    rw [← port] at present ⊢
    rw [if_pos up, State.port_notify, if_pos ⟨rfl, present⟩]
  obtain ⟨ps, form⟩ := told
  rw [form] at first ⊢
  obtain ⟨⟨-, -, -, tqueue, tseeking, -, -, -, -, -, tmarks, tplaced, tlane⟩, circuit, notices⟩ :=
    State.settle_keeps (s := { v with ports := ps }) gone
  have nobody' : (State.settle { v with ports := ps } c).NobodyWaits := by
    refine nobody.congr (tqueue.trans (vqueue.trans queue)) (tseeking.trans (vseeking.trans (seeking.trans ?_)))
    change r.seeking.filter _ = _
    rw [nobody.1]
    rfl
  rw [nobody'.finish (by rw [tmarks]; exact left.loss.trans (by rw [marks', marks]))
    (by rw [tmarks]; exact left.grant.trans (by rw [marks', marks]))]
  generalize State.settle { v with ports := ps } c = t at *
  have lanes (j) : t.unmark.lane j = v.lane j := tlane j
  have before (j) : u.lane j = r.lane j := lane j
  refine ⟨circuit, fun i h => ?_, fun k h other state clean => ?_, fun up present few => ?_⟩
  · have own := left.current i h
    rw [before] at own
    rw [lanes]
    obtain ⟨state, place, fenced, presumed⟩ := own
    exact ⟨state, place, fun w why => ⟨(fenced w why).1, tplaced.symm ▸ (fenced w why).2⟩, presumed⟩
  · have own := left.replacement k h other
    rw [before] at own
    rw [lanes]
    exact own state clean
  · have first := first up present
    rw [queueNotice_of_lt _ (by omega)] at first
    rcases notices x.near with same | ⟨m, more⟩
    · exact ⟨[], same.trans first⟩
    · rw [first, queueNotice_of_lt _ (by rw [List.length_append, List.length_singleton]; omega)] at more
      exact ⟨[m], more.trans (by simp)⟩

/-! ### AMEND (R44, R116, R122) -/

theorem State.takeAmend_of {s : State} {g : Tag} {c : SlotId} {x : Circuit} (h : s.matchTag g = some (c, x))
    (answer : x.role = .answer) (live : x.live = true) (b : Byte) (o : Option Byte) :
    s.takeAmend g b o = o.elim (s.amendNarrow c b.toNat) (s.amendLane c x b) := by
  have going : x.state ≠ .closing := fun closing => by
    rw [Circuit.live, closing] at live
    cases live
  rw [State.takeAmend, h]
  simp only [if_neg going, answer]
  cases o <;> rfl

theorem State.amendLane_of {s : State} {c : SlotId} {x : Circuit} {b l : Byte} {p : Position} {i : LaneId}
    (hx : s.circuit c = some x) (hp : x.positions[b.toNat]? = some p) (here : p.dropped = false)
    (lane : l.toNat = i.val) : s.amendLane c x b l =
      if amendAnswer s.side (s.lane i).state = .ok then s.acceptAmend c x b.toNat p i
      else s.send (.amendReply x.tag b (amendAnswer s.side (s.lane i).state)) := by
  rw [State.amendLane, State.position_eq hx, hp, laneOfByte_of_lt lane]
  dsimp only
  rw [here]
  cases amendAnswer s.side (s.lane i).state <;> rfl

/-- R116: an AMEND that names a position or a lane that is not there. -/
theorem State.amendLane_absent {s : State} {c : SlotId} {x : Circuit} {b l : Byte} (hx : s.circuit c = some x)
    (absent : 24 ≤ l.toNat ∨ ∀ p, x.positions[b.toNat]? = some p → p.dropped = true) :
    s.amendLane c x b l = s.send (.amendReply x.tag b .noCircuit) := by
  rw [State.amendLane, State.position_eq hx]
  cases hp : x.positions[b.toNat]? with
  | none => rfl
  | some p =>
    rcases absent with high | dropped
    · rw [laneOfByte_of_ge high]
    · cases laneOfByte l with
      | none => rfl
      | some i => exact if_pos (dropped p hp)

/-- R122: an AMEND without a lane. -/
theorem State.amendNarrow_of {s : State} {c : SlotId} {n : Nat} {x : Circuit} (hx : s.circuit c = some x) :
    ((∀ p, x.positions[n]? = some p → p.dropped = true) → s.amendNarrow c n = s)
    ∧ ∀ p, x.positions[n]? = some p → p.dropped = false → s.amendNarrow c n = s.dropPosition c n := by
  rw [State.amendNarrow, State.position_eq hx]
  cases x.positions[n]? with
  | none => exact ⟨fun _ => rfl, fun _ no => nomatch no⟩
  | some p =>
    refine ⟨fun dropped => if_pos (dropped p rfl), fun q same here => ?_⟩
    obtain rfl := Option.some.inj same
    exact if_neg (by rw [here]; decide)

/-- R34, R116: the answer to an AMEND that names a lane, by its state. -/
theorem amendAnswer_of (side : Side) (st : LaneState) :
    (st ≠ .free → st ≠ .claimed → amendAnswer side st = .laneUnavailable)
    ∧ (st = .claimed → side = .a → amendAnswer side st = .laneConflict)
    ∧ (st = .free ∨ st = .claimed ∧ side = .b → amendAnswer side st = .ok) := by
  cases st <;> cases side <;> decide

/-- Settles O49: by the record, the position, the lane's state and the phase; the UP and the setup phase take a lane into
their own roles. -/
theorem amendTaken : Obligations.AmendTaken := by
  rintro s r q a g b l inOrder rfl clear can
  have clear : (s.counted a).Unmarked := (s.scratch_counted a).trans clear
  have taken (o : Option Byte) : exec (.amend q a g b o) s = .next ((s.counted a).received.takeAmend g b o).finish :=
    congrArg Host.Outcome.next (State.receive_inOrder inOrder a _)
  simp only [taken]
  generalize s.counted a = r at *
  have answers (m : Msg) : (r.received.send m).finish = r.sent m := by
    rw [State.send_received clear can, State.finish_sent_received clear]
  have byte : byteOf b.toNat = b := byteOf_of_toNat rfl
  refine ⟨fun unknown o => ?_, fun c x known => ?_⟩
  · have unknown : r.received.matchTag g = none := unknown
    rw [State.takeAmend, unknown]
    exact congrArg _ (answers _)
  have known : r.received.matchTag g = some (c, x) := known
  have circuit : r.circuit c = some x := State.circuit_of_matchTag known
  refine ⟨fun closing o => ?_, fun answer live => ?_⟩
  · have closed : r.received.takeAmend g b o = r.received.send (.amendReply g b .noCircuit) := by
      rw [State.takeAmend, known]
      exact if_pos closing
    rw [closed, answers]
  simp only [State.takeAmend_of known answer live, Option.elim_none, Option.elim_some]
  obtain ⟨discards, narrows⟩ := State.amendNarrow_of (s := r.received) (n := b.toNat) circuit
  refine ⟨fun absent => ?_, fun absent => ?_, fun p hp here nobody => ?_, fun p i hp here lane => ?_⟩
  · rw [State.amendLane_absent (s := r.received) circuit absent, answers]
  · rw [discards absent, State.finish_received clear]
  · have narrowed := State.narrows circuit hp here can clear nobody
    obtain ⟨y, hy, positions⟩ := narrowed.circuit
    rw [narrows p hp here]
    refine ⟨_, y, rfl, hy, ?_, ?_, fun i h => ?_, fun k h other state clean => ?_, narrowed.notices⟩
    · rw [← Circuit.width_narrowed hp here, Circuit.width, positions, ← Circuit.width]
    · rw [positions]
      change (x.positions.modify _ _)[_]? = _
      simp [hp, Position.narrowed, Position.endRepair]
    · obtain ⟨state, place, fenced, presumed⟩ := narrowed.current i h
      exact ⟨state, place, State.boundTo_of_other (by rw [state]; decide), fenced, presumed⟩
    · rw [narrowed.replacement k h other state clean]
      exact ⟨rfl, rfl⟩
  · rw [State.amendLane_of (s := r.received) circuit hp here lane]
    obtain ⟨unavailable, conflict, accepted⟩ := amendAnswer_of r.side (r.lane i).state
    have refuses (w : AmendResult) (h : amendAnswer r.side (r.lane i).state = w) (no : w ≠ .ok) :
        (if amendAnswer r.received.side (r.received.lane i).state = .ok then r.received.acceptAmend c x b.toNat p i
        else r.received.send (.amendReply x.tag b (amendAnswer r.received.side (r.received.lane i).state))).finish
          = r.sent (.amendReply x.tag b w) := by
      subst h
      rw [← answers]
      exact congrArg State.finish (if_neg no)
    have accepts (h : amendAnswer r.side (r.lane i).state = .ok) :
        (if amendAnswer r.received.side (r.received.lane i).state = .ok then r.received.acceptAmend c x b.toNat p i
        else r.received.send (.amendReply x.tag b (amendAnswer r.received.side (r.received.lane i).state)))
          = r.received.acceptAmend c x b.toNat p i := if_pos h
    refine ⟨fun held other => ?_, fun claimed side => ?_, fun free up bare => ?_, fun able phase => ?_⟩
    · rw [refuses _ (unavailable held other) (by decide)]
    · rw [refuses _ (conflict claimed side) (by decide)]
    · obtain ⟨y, take, state, position, pool⟩ := State.amendAccepted_up circuit hp can clear up bare
        fun claimed => (nomatch free.symm.trans claimed)
      obtain ⟨_, _, own⟩ := take.lane
      rw [accepts (accepted (.inl free))]
      have placed := take.placed
      rw [byte] at placed
      exact ⟨_, rfl, by rw [own]; rfl, by rw [own]; rfl, by rw [own]; rfl, ⟨y, take.circuit, state, position⟩, pool, placed⟩
    · have ok : amendAnswer r.side (r.lane i).state = .ok := accepted (able.imp_right fun h => ⟨h.1, h.2.1⟩)
      have apart : (r.lane i).state = .claimed → ∀ pl, (r.lane i).place = some pl → pl.slot ≠ c := fun claimed =>
        able.elim (fun free => nomatch free.symm.trans claimed) fun h => h.2.2
      rw [accepts ok]
      rcases phase with ⟨setup, sound⟩ | ⟨up, bare⟩
      · obtain ⟨y, take, state, position, left⟩ := State.amendAccepted_setup circuit hp can clear setup sound apart
        obtain ⟨_, _, own⟩ := take.lane
        have placed := take.placed
        rw [byte] at placed
        exact ⟨_, y, rfl, take.circuit, by rw [own]; rfl, by rw [own]; rfl, by rw [own]; rfl, placed, take.yielded,
          fun _ => ⟨state, by rw [own]; rfl, position, left⟩, fun no => absurd setup no⟩
      · obtain ⟨y, take, state, position, -⟩ := State.amendAccepted_up circuit hp can clear up bare apart
        obtain ⟨_, _, own⟩ := take.lane
        have placed := take.placed
        rw [byte] at placed
        exact ⟨_, y, rfl, take.circuit, by rw [own]; rfl, by rw [own]; rfl, by rw [own]; rfl, placed, take.yielded,
          fun setup => (by rw [setup] at up; rcases up with no | no <;> cases no), fun _ => ⟨state, by rw [own]; rfl, position⟩⟩

end Sys2Proof.Machine
end

section
/-! SUPPORT. Sys2Proof/Proofs/QueueFollows.lean: what the end of an event can do to the setup queue: an entry keeps its
port and tag, and names a slot that it did not name before only where that slot was VACANT (R51, R58 to R60, R66). -/

namespace Sys2Proof.Machine

open Sys2Proof

/-- `q` has been formed from the queue of `s`: each entry stands for one with its port and tag, and waits, has the slot
that one had, or has a slot that was VACANT in `s`. -/
def State.QueueFrom (s : State) (q : List Entry) : Prop := ∀ o ∈ q, ∃ o' ∈ s.queue,
  o.port = o'.port ∧ o.tag = o'.tag ∧ (o.slot = none ∨ o.slot = o'.slot ∨ ∃ d, o.slot = some d ∧ s.circuit d = none)

/-- `t` follows `s`: its queue has been formed from that of `s`, and every circuit of `s` still has its slot. -/
structure State.Follows (s t : State) : Prop where
  queue : s.QueueFrom t.queue
  circuits : ∀ d, s.circuit d ≠ none → t.circuit d ≠ none

theorem State.QueueFrom.of_mem {s : State} {q : List Entry} (h : ∀ o ∈ q, o ∈ s.queue) : s.QueueFrom q :=
  fun o m => ⟨o, h o m, rfl, rfl, .inr (.inl rfl)⟩

theorem State.Follows.of_same {s t : State} (queue : t.queue = s.queue)
    (circuits : ∀ d, s.circuit d ≠ none → t.circuit d ≠ none) : s.Follows t :=
  ⟨.of_mem (by rw [queue]; exact fun _ m => m), circuits⟩

theorem State.Follows.refl (s : State) : s.Follows s := .of_same rfl fun _ => id

theorem State.Follows.queueFrom {s t : State} (h : s.Follows t) {q : List Entry} (k : t.QueueFrom q) : s.QueueFrom q := by
  intro o m
  obtain ⟨o', m', port, tag, slot⟩ := k o m
  obtain ⟨o'', m'', port', tag', slot'⟩ := h.queue o' m'
  refine ⟨o'', m'', port.trans port', tag.trans tag', ?_⟩
  rcases slot with none | same | ⟨d, new, vacant⟩
  · exact .inl none
  · rw [same]
    exact slot'
  · exact .inr (.inr ⟨d, new, Classical.byContradiction fun held => h.circuits d held vacant⟩)

theorem State.Follows.trans {s t u : State} (h : s.Follows t) (k : t.Follows u) : s.Follows u :=
  ⟨h.queueFrom k.queue, fun d held => k.circuits d (h.circuits d held)⟩

/-! ### The blocks' shared work -/

section Shared

variable {s u : State}

theorem State.Follows.foldl {α : Type} {f : State → α → State} (step : ∀ (s : State) a, s.Follows (f s a))
    (h : s.Follows u) (l : List α) : s.Follows (l.foldl f u) := by
  induction l generalizing u with
  | nil => exact h
  | cons a l ih => exact ih (h.trans (step u a))

/-- What speaks neither of the queue nor of the slots. -/
theorem State.Follows.same {t : State} (h : s.Follows u) (queue : t.queue = u.queue) (slots : t.slots = u.slots) :
    s.Follows t :=
  h.trans (.of_same queue fun d => by rw [State.circuit, State.circuit, slots]; exact id)

theorem State.Follows.send (h : s.Follows u) (m : Msg) : s.Follows (u.send m) :=
  h.same (State.send_queue ..) (State.send_slots ..)

theorem State.Follows.notify (h : s.Follows u) (g : PortId) (n : Notice) : s.Follows (u.notify g n) :=
  h.same (State.notify_queue ..) (State.notify_slots ..)

theorem State.Follows.setCircuit (h : s.Follows u) (c : SlotId) (x : Circuit) : s.Follows (u.setCircuit c x) :=
  h.trans (.of_same rfl fun d held => by
    rw [State.circuit_setCircuit]
    split
    · exact Option.some_ne_none x
    · exact held)

theorem State.Follows.modPosition (h : s.Follows u) (c : SlotId) (n : Nat) (f : Position → Position) :
    s.Follows (u.modPosition c n f) := by
  unfold State.modPosition State.modCircuit
  split
  · exact h
  · exact h.setCircuit c _

theorem State.Follows.leaveAll (h : s.Follows u) (l : List LaneId) (b : Bool) (e : PoolEnd) :
    s.Follows (u.leaveAll l b e) := by
  obtain ⟨slots, queue, -⟩ := u.leaveAll_rest l b e
  exact h.same queue slots

theorem State.Follows.settle (h : s.Follows u) (c : SlotId) : s.Follows (u.settle c) := by
  have up : s.Follows (u.upDecision c) := by
    unfold State.upDecision
    split
    · exact h
    · split
      · exact .notify (.setCircuit h c _) _ _
      · exact h
  unfold State.settle
  split
  · exact h
  · split
    · exact .notify (.setCircuit h c _) _ _
    · exact up

theorem State.Follows.beginClose (h : s.Follows u) (c : SlotId) (r : CloseReason) : s.Follows (u.beginClose c r) := by
  unfold State.beginClose
  split
  · exact h
  · rename_i x _
    split
    · exact h
    · have released : s.Follows (x.lanes.foldl (fun s i => s.moveLane i .releasing) u) :=
        .foldl (fun s i => State.Follows.same (t := s.moveLane i .releasing) (.refl s) rfl rfl) h x.lanes
      have closed := released.setCircuit c
        { x with state := .closing, closeReason := some r, positions := x.positions.map Position.endRepair }
      dsimp only
      refine .send ?_ _
      exact closed.same rfl rfl

theorem State.Follows.dropPosition (h : s.Follows u) (c : SlotId) (n : Nat) : s.Follows (u.dropPosition c n) := by
  unfold State.dropPosition
  split
  · exact h
  · rename_i q _
    have left : s.Follows (u.cleared c n q) := by
      unfold State.cleared
      dsimp only
      refine .leaveAll (.leaveAll ?_ _ _ _) _ _ _
      exact State.Follows.same (h.modPosition c n Position.narrowed) rfl rfl
    refine .settle ?_ c
    split
    · exact left
    · split
      · exact .notify left _ _
      · exact left

theorem State.Follows.pick (h : s.Follows u) (c : SlotId) (n : Nat) : s.Follows (u.pick c n) := by
  have exhaust : s.Follows (u.exhaust c n) := by
    unfold State.exhaust
    split
    · exact h
    · split
      · exact .dropPosition (.send h _) c n
      · exact .beginClose h c _
  unfold State.pick
  split
  · split
    · exact h
    · split
      · exact exhaust
      · split
        · unfold State.propose
          dsimp only
          refine .send (.modPosition ?_ c n _) _
          exact h.same rfl rfl
        · unfold State.seek
          dsimp only
          exact State.Follows.same (h.modPosition c n _) rfl rfl
  · exact h

/-! ### The end of an event (R58, R59, R66, R115, R130) -/

theorem State.Follows.serveSeeking (h : s.Follows u) (k : Nat) : s.Follows (State.serveSeeking k u) := by
  induction k generalizing u with
  | zero => exact h
  | succ k ih =>
    unfold State.serveSeeking
    split
    · refine ih (.pick (.modPosition ?_ _ _ _) _ _)
      exact h.same rfl rfl
    · exact h

theorem State.Follows.reportGrowth (h : s.Follows u) : s.Follows u.reportGrowth := by
  unfold State.reportGrowth
  split
  · have quiet : s.Follows { u with scratch := { u.scratch with grown := false } } := h.same rfl rfl
    exact (quiet.serveSeeking _).same rfl rfl
  · exact h

theorem State.circuit_of_vacantSlot {s : State} {c : SlotId} (h : s.vacantSlot = some c) : s.circuit c = none :=
  Option.isNone_iff_eq_none.mp (List.find?_some (p := fun c => (s.circuit c).isNone) h)

theorem State.follows_scanTurn (s : State) (cls : Cls) (n : Nat) : s.Follows (State.scanTurn cls s n) := by
  unfold State.scanTurn
  split
  · rename_i e c here vacant
    split
    · have served := s.served_serveInto n e c (s.grantWidth e)
      refine ⟨?_, fun d held => ?_⟩
      · rw [served.queue]
        intro o m
        rcases List.mem_or_eq_of_mem_set m with m | rfl
        · exact ⟨o, m, rfl, rfl, .inr (.inl rfl)⟩
        · exact ⟨e, List.mem_of_getElem? here, rfl, rfl, .inr (.inr ⟨c, rfl, State.circuit_of_vacantSlot vacant⟩)⟩
      · rw [served.circuit]
        split
        · exact Option.some_ne_none _
        · exact held
    · exact .refl s
  · exact .refl s

theorem State.Follows.scan (h : s.Follows u) : s.Follows u.scan :=
  .foldl (fun s n => s.follows_scanTurn .shared n) (.foldl (fun s n => s.follows_scanTurn .reserved n) h _) _

theorem State.Follows.grant (h : s.Follows u) : s.Follows u.grant := by
  obtain ⟨ls, q, us, e, -⟩ := u.grant_eq
  rw [e]
  exact .same h rfl rfl

end Shared

/-- R66: an entry returned keeps its port and tag. -/
theorem State.queueFrom_returnEntry (s : State) (e : Entry) : s.QueueFrom (s.returnEntry e).queue := by
  unfold State.returnEntry
  dsimp only
  split
  · intro o m
    obtain ⟨o', m', rfl⟩ := List.mem_map.mp m
    split
    · rename_i same
      exact ⟨o', m', same.1.symm, same.2.symm, .inl rfl⟩
    · exact ⟨o', m', rfl, rfl, .inr (.inl rfl)⟩
  · rw [State.notify_queue]
    obtain ⟨q, k, drops, rest⟩ := s.dropEntries_eq fun o => decide (o.port = e.port ∧ o.tag = e.tag)
    rw [drops]
    exact .of_mem fun o m => (rest o m).1

theorem State.follows_returnEntry (s : State) (e : Entry) : s.Follows (s.returnEntry e) := by
  refine ⟨s.queueFrom_returnEntry e, ?_⟩
  obtain ⟨q, ps, sc, same, -⟩ := s.returnEntry_eq e
  rw [same]
  exact fun _ => id

/-- R66, R144: the queue behind the trunk's loss: the slots are VACANT, and the entries wait. -/
theorem State.queueFrom_goLost (s : State) (r : LossReason) : s.QueueFrom (s.goLost r).queue := by
  let t := (s.closeSession r).log .trunkLost none none (BitVec.zeroExtend 16 r.code)
  obtain ⟨ps, told⟩ := t.notifyAll_eq (.trunkLost r)
  obtain ⟨ls, ring, n, out, -⟩ := State.lanesAtLoss_eq (s := { t with ports := ps }) rfl
  obtain ⟨sl, sk, ps', sc, vacated, -⟩ := State.foldl_circuitAtLoss (indexes 16) (indexes_nodup 16)
    { t with ports := ps, lanes := ls, pool := [], dwellQueue := [], ring := ring, nextEntry := n }
  have form : s.goLost r
      = { ((indexes 16).foldl State.circuitAtLoss (t.notifyAll (.trunkLost r)).lanesAtLoss).queueAtLoss with
          seeking := [] } := rfl
  rw [form, told, out, vacated]
  generalize hv : ({ t with
    ports := ps', lanes := ls, pool := [], dwellQueue := [], ring := ring, nextEntry := n, slots := sl, seeking := sk,
    scratch := sc } : State) = v
  have queue : v.queue = s.queue := by
    rw [← hv]
    rfl
  have follows : v.Follows v.queueAtLoss := .foldl (fun s e => s.follows_returnEntry e) (.refl v) _
  obtain ⟨q, ps'', sc', returned, waits⟩ := v.queueAtLoss_eq
  rw [returned] at follows ⊢
  intro o m
  obtain ⟨o', m', port, tag, -⟩ := follows.queue o m
  exact ⟨o', queue ▸ m', port, tag, .inl (waits o m)⟩

/-- The queue behind the end of an event. -/
theorem State.queueFrom_finish (s : State) : s.QueueFrom s.finish.queue := by
  have scanned : s.Follows (if s.reportGrowth.scratch.scan then s.reportGrowth.scan else s.reportGrowth) := by
    split
    · exact .scan (.reportGrowth (.refl s))
    · exact .reportGrowth (.refl s)
  generalize hu : (if s.reportGrowth.scratch.scan then s.reportGrowth.scan else s.reportGrowth) = u at scanned
  have granted : s.Follows (if u.scratch.grant then u.grant else u) := by
    split
    · exact .grant scanned
    · exact scanned
  generalize hv : (if u.scratch.grant then u.grant else u) = v at granted
  have form : s.finish = v.overflowLoss.unmark := by
    rw [← hv, ← hu]
    rfl
  rw [form]
  change s.QueueFrom v.overflowLoss.queue
  unfold State.overflowLoss
  split
  · exact granted.queueFrom (v.queueFrom_goLost _)
  · exact granted.queue

end Sys2Proof.Machine
end

section
/-! SUPPORT. Sys2Proof/Proofs/HostCloses.lean: the requests WITHDRAW and CLOSE, and the close that they begin (R40, R45,
R62). -/

namespace Sys2Proof.Machine

open Sys2Proof

/-! ### The close that begins (R40) -/

/-- R40: lanes that are released stay in their places and are in no pool. -/
theorem State.foldl_release (l : List LaneId) (s : State) : ∃ ls pool dq,
    l.foldl (fun s i => s.moveLane i .releasing) s = { s with lanes := ls, pool := pool, dwellQueue := dq }
    ∧ (∀ i ∈ l, (ls.get i).state = .releasing ∧ (ls.get i).place = (s.lane i).place ∧ i ∉ pool)
    ∧ (∀ i, i ∉ l → ls.get i = s.lane i) ∧ ∀ i ∈ pool, i ∈ s.pool := by
  induction l generalizing s with
  | nil => exact ⟨s.lanes, s.pool, s.dwellQueue, rfl, fun _ m => (nomatch m), fun _ _ => rfl, fun _ m => m⟩
  | cons a l ih =>
    have lane (j) := s.lane_moveLane a j .releasing
    have pool : (s.moveLane a .releasing).pool = s.pool.filter fun j => decide (j ≠ a) := s.pool_moveLane a .releasing
    obtain ⟨ls, pool', dq, e, released, others, within⟩ := ih (s.moveLane a .releasing)
    rw [pool] at within
    refine ⟨ls, pool', dq, e, fun i m => ?_, fun i no => ?_, fun i m => (List.mem_filter.mp (within i m)).1⟩
    · by_cases later : i ∈ l
      · obtain ⟨state, place, out⟩ := released i later
        refine ⟨state, place.trans ?_, out⟩
        rw [lane]
        split
        · rename_i same
          rw [same]
          rfl
        · rfl
      · obtain rfl : i = a := (List.mem_cons.mp m).resolve_right later
        rw [others i later, lane, if_pos rfl]
        exact ⟨rfl, rfl, fun k => of_decide_eq_true (List.mem_filter.mp (within i k)).2 rfl⟩
    · obtain ⟨ne, no⟩ := not_or.mp fun k => no (List.mem_cons.mpr k)
      rw [others i no, lane, if_neg ne]

/-- R40: a circuit that has begun a close. -/
def Circuit.closed (x : Circuit) (why : CloseReason) : Circuit :=
  { x with state := .closing, closeReason := some why, positions := x.positions.map Position.endRepair }

theorem Circuit.lanes_closed (x : Circuit) (why : CloseReason) : (x.closed why).lanes = x.lanes := by
  rw [Circuit.lanes, Circuit.closed, List.flatMap_map]
  rfl

/-- What `u` is where, from `s`, the circuit `x` of slot `c` has begun a close. -/
structure State.BeginsClose (s u : State) (c : SlotId) (x : Circuit) (why : CloseReason) : Prop where
  circuit : u.circuit c = some (x.closed why)
  lanes : ∀ i ∈ x.lanes, (u.lane i).state = .releasing ∧ (u.lane i).place = (s.lane i).place ∧ i ∉ u.pool
  seeking : ∀ cp ∈ u.seeking, cp.1 ≠ c
  queue : u.queue = s.queue
  ports : u.ports = s.ports
  marks : u.scratch = s.scratch
  placed : u.placed = s.placed ++ [.close x.tag why]
  room : u.Room s.queue.length

theorem State.beginsClose {s : State} {c : SlotId} {x : Circuit} (hx : s.circuit c = some x) (going : x.state ≠ .closing)
    (v : s.scratch.overflow = false) (room : s.Room (1 + s.queue.length)) (why : CloseReason) :
    s.BeginsClose (s.beginClose c why) c x why := by
  obtain ⟨ls, pool, dq, released, lanes, -, -⟩ := State.foldl_release x.lanes s
  let u : State := { s with lanes := ls, pool := pool, dwellQueue := dq }
  let t : State := { u.setCircuit c (x.closed why) with seeking := s.seeking.filter fun cp => decide (cp.1 ≠ c) }
  have form : s.beginClose c why = t.send (.close x.tag why) := by
    rw [State.beginClose, hx]
    refine (if_neg going).trans ?_
    rw [released]
    rfl
  have room' : t.Room (s.queue.length + 1) := Nat.add_comm 1 _ ▸ room
  rw [form]
  refine ⟨?_, fun i m => ?_, ?_, State.send_queue .., State.send_ports .., State.send_scratch t _ room'.lt,
    State.placed_send t _ room.1 v room'.lt, room'.send _⟩
  · rw [State.send_circuit]
    exact State.circuit_setCircuit_self u c _
  · rw [State.send_lane, State.send_pool]
    exact lanes i m
  · rw [State.send_seeking]
    exact fun cp m => of_decide_eq_true (List.mem_filter.mp m).2

/-! ### What a scan leaves alone (R59, R60) -/

/-- The number of entries that wait. -/
def waitCount (q : List Entry) : Nat := q.countP fun e => e.slot = none

/-- What `t` keeps of `s` where a scan has served some of the entries that wait, while each had room for its SETUP. -/
structure State.Scanned (s t : State) : Prop where
  lanes : ∀ i, i ∉ s.pool → t.lane i = s.lane i ∧ i ∉ t.pool
  circuits : ∀ d y, s.circuit d = some y → t.circuit d = some y
  seeking : t.seeking = s.seeking
  marks : t.scratch = s.scratch
  placed : ∃ back, t.placed = s.placed ++ back
  room : t.Room (waitCount t.queue)

theorem State.Scanned.refl {s : State} (room : s.Room (waitCount s.queue)) : s.Scanned s :=
  ⟨fun _ out => ⟨rfl, out⟩, fun _ _ => id, rfl, rfl, ⟨[], (List.append_nil _).symm⟩, room⟩

theorem State.Scanned.trans {s t u : State} (h : s.Scanned t) (k : t.Scanned u) : s.Scanned u := by
  obtain ⟨back, placed⟩ := h.placed
  obtain ⟨back', placed'⟩ := k.placed
  refine ⟨fun i out => ?_, fun d y held => k.circuits d y (h.circuits d y held), k.seeking.trans h.seeking,
    k.marks.trans h.marks, ⟨back ++ back', by rw [placed', placed, List.append_assoc]⟩, k.room⟩
  obtain ⟨lane, out'⟩ := h.lanes i out
  obtain ⟨lane', out''⟩ := k.lanes i out'
  exact ⟨lane'.trans lane, out''⟩

theorem State.scanned_scanTurn {s : State} (v : s.scratch.overflow = false) (room : s.Room (waitCount s.queue)) (cls : Cls)
    (n : Nat) : s.Scanned (State.scanTurn cls s n) := by
  unfold State.scanTurn
  split
  · rename_i e c here vacant
    split
    · rename_i fit
      have served := s.served_serveInto n e c (s.grantWidth e)
      generalize s.grantWidth e = w at served ⊢
      obtain ⟨lt, at_⟩ := List.getElem?_eq_some_iff.mp here
      have fewer : waitCount s.queue = waitCount (s.queue.set n (e.servedIn c)) + 1 := by
        have some_waits : 0 < waitCount s.queue :=
          List.countP_pos_iff.mpr ⟨e, List.mem_of_getElem? here, decide_eq_true fit.2.1⟩
        have count := List.countP_set (p := fun e : Entry => decide (e.slot = none)) (a := e.servedIn c) lt
        rw [at_, decide_eq_true fit.2.1] at count
        change waitCount (s.queue.set n (e.servedIn c)) = waitCount s.queue - 1 + 0 at count
        omega
      rw [fewer] at room
      obtain ⟨marks, placed, left⟩ := served.sends v _ room
      refine ⟨fun i out => ?_, fun d y held => ?_, served.seeking, marks, ⟨_, placed⟩, by rw [served.queue]; exact left⟩
      · refine ⟨served.other i fun m => out (List.mem_of_mem_take m), fun m => out ?_⟩
        rw [served.pool] at m
        exact (List.mem_filter.mp m).1
      · rw [served.circuit, if_neg, held]
        rintro rfl
        rw [State.circuit_of_vacantSlot vacant] at held
        cases held
    · exact .refl room
  · exact .refl room

theorem State.scanned_scan {s : State} (v : s.scratch.overflow = false) (room : s.Room (waitCount s.queue)) :
    s.Scanned s.scan := by
  have pass (cls : Cls) (l : List Nat) (s : State) (v : s.scratch.overflow = false) (room : s.Room (waitCount s.queue)) :
      s.Scanned (l.foldl (State.scanTurn cls) s) := by
    induction l generalizing s with
    | nil => exact .refl room
    | cons n l ih =>
      have turn := State.scanned_scanTurn v room cls n
      exact turn.trans (ih _ (by rw [turn.marks]; exact v) turn.room)
  have first := pass .reserved (List.range s.queue.length) s v room
  exact first.trans (pass .shared _ _ (by rw [first.marks]; exact v) first.room)

/-- The end of an event that marked a scan at most. -/
theorem State.finish_of_scan_alone {s : State} {b : Bool} (marks : s.scratch = { scan := b })
    (keeps : s.scan.scratch = s.scratch) : s.finish = (if b then s.scan else s).unmark := by
  have growth : s.reportGrowth = s := if_neg (by rw [marks]; exact Bool.false_ne_true)
  rw [marks] at keeps
  unfold State.finish
  rw [growth]
  cases b <;>
    simp only [marks, keeps, State.overflowLoss, State.unmark, if_true, Bool.false_eq_true, false_and, if_false]

theorem State.scanned_finish {s : State} {b : Bool} (marks : s.scratch = { scan := b })
    (room : s.Room (waitCount s.queue)) : ∃ t, s.Scanned t ∧ s.finish = t.unmark := by
  have scanned := State.scanned_scan (by rw [marks]) room
  refine ⟨_, ?_, State.finish_of_scan_alone marks scanned.marks⟩
  split
  · exact scanned
  · exact .refl room

/-- R40: the close that has begun, at the end of an event that marked a scan at most. -/
theorem State.BeginsClose.finish {s u : State} {c : SlotId} {x : Circuit} {why : CloseReason}
    (h : s.BeginsClose u c x why) (q : List Entry) (ps : Table 6 Port) (b : Bool) (few : q.length ≤ s.queue.length) :
    s.CloseBegun (State.finish { u with queue := q, ports := ps, scratch := { scan := b } }) c x why := by
  have room : State.Room { u with queue := q, ports := ps, scratch := { scan := b } } (waitCount q) :=
    State.Room.mono (s := u) h.room ((List.countP_le_length ..).trans few)
  obtain ⟨t, scanned, ends⟩ := State.scanned_finish rfl room
  obtain ⟨back, placed⟩ := scanned.placed
  rw [ends]
  refine ⟨⟨_, scanned.circuits c _ h.circuit, rfl, rfl, rfl, x.lanes_closed why⟩, fun i m => ?_, fun cp m => ?_,
    [], back, placed.trans ?_⟩
  · obtain ⟨state, place, out⟩ := h.lanes i m
    have lane : t.unmark.lane i = u.lane i := (scanned.lanes i out).1
    rw [lane]
    exact ⟨state, place⟩
  · exact h.seeking cp (scanned.seeking ▸ m)
  · change u.placed ++ back = _
    rw [h.placed]
    simp

/-! ### The requests (R45, R62) -/

theorem State.takeWithdraw_none {s : State} {h : PortId} {b : Byte} (none : ∀ e ∈ s.queue, ¬ (e.port = h ∧ e.tag = b)) :
    s.takeWithdraw h [b] = s.reply h .noRequest [] := by
  have missing : s.queue.find? (fun e => e.port = h ∧ e.tag = b) = .none :=
    List.find?_eq_none.mpr fun e m => by simpa using none e m
  simp only [State.takeWithdraw, missing]

theorem State.takeWithdraw_of {s : State} {h : PortId} {b : Byte} {e : Entry}
    (found : s.queue.find? (fun e => e.port = h ∧ e.tag = b) = some e) :
    s.takeWithdraw h [b] = ((s.withdrawEntry e).reply h .ok []).finish := by
  simp only [State.takeWithdraw, found]

theorem State.withdrawEntry_waiting {s : State} {e : Entry} (waits : e.slot = none) :
    s.withdrawEntry e = s.dropEntries fun o => o.port = e.port ∧ o.tag = e.tag := by
  rw [State.withdrawEntry, waits]

theorem State.withdrawEntry_proposed {s : State} {e : Entry} {c : SlotId} (proposed : e.slot = some c) :
    s.withdrawEntry e = (s.beginClose c .withdrawn).dropEntries fun o => o.port = e.port ∧ o.tag = e.tag := by
  rw [State.withdrawEntry, proposed]

/-- R45: CLOSE of a circuit of the port that is not CLOSING. -/
theorem State.closeSlot_going {s : State} {h : PortId} {c : SlotId} {x : Circuit} (hx : s.circuit c = some x)
    (own : x.near = h) (going : x.state ≠ .closing) : s.closeSlot h c =
      if x.state = .proposed then (((s.beginClose c .withdrawn).dropEntryOfSlot c).reply h .ok []).finish
      else ((s.beginClose c .hostClose).reply h .ok []).finish := by
  unfold State.closeSlot
  rw [hx]
  dsimp only
  rw [if_neg (not_not.mpr own)]
  cases state : x.state with
  | closing => exact absurd state going
  | _ => rfl

/-- R154: the reply stands at the end of the event. -/
theorem State.link_finish_answered (s : State) (h : PortId) (k : ReqKind) (tag : Byte) (st : Status) (rs : List Byte) :
    ((s.answered h k tag st rs).finish.port h).link = .replied ⟨k.code, tag, st, rs⟩ := by
  obtain ⟨ns, e⟩ := ((kept_within (s.answered h k tag st rs)).finish (.refl _)).port h
  rw [e]
  exact s.link_answered h k tag st rs

theorem State.length_dropEntries (s : State) (leaves : Entry → Bool) :
    (s.dropEntries leaves).queue.length ≤ s.queue.length := by
  unfold State.dropEntries
  split
  · exact List.length_filter_le ..
  · exact le_refl _

/-- R40: a close that has begun, behind which entries may have left, is answered, and the event ends. -/
theorem State.closeBegun_answered {s : State} {c : SlotId} {x : Circuit} (hx : s.circuit c = some x)
    (going : x.state ≠ .closing) (clear : s.Unmarked) (room : s.Room (1 + s.queue.length)) (why : CloseReason)
    (h : PortId) (k : ReqKind) (tag : Byte) (st : Status) (rs : List Byte) :
    s.CloseBegun ((s.beginClose c why).answered h k tag st rs).finish c x why
    ∧ ∀ leaves, s.CloseBegun (((s.beginClose c why).dropEntries leaves).answered h k tag st rs).finish c x why := by
  have begins := State.beginsClose hx going (by rw [clear]) room why
  generalize s.beginClose c why = u at begins ⊢
  have marks : u.scratch = {} := begins.marks.trans clear
  refine ⟨?_, fun leaves => ?_⟩
  · have form : u.answered h k tag st rs = { u with
        queue := u.queue, ports := (u.answered h k tag st rs).ports, scratch := { scan := false } } := by
      rw [← marks]
      rfl
    rw [form]
    exact begins.finish _ _ false (by rw [begins.queue])
  · have few := u.length_dropEntries leaves
    obtain ⟨q, b, drops, -⟩ := u.dropEntries_eq leaves
    rw [drops] at few ⊢
    rw [marks]
    exact begins.finish q _ b (by rw [← begins.queue]; exact few)

/-- R62: the WITHDRAW of the entries that wait leaves nobody waiting. -/
theorem State.withdraw_waiting {s : State} (clear : s.Unmarked) {leaves : Entry → Bool}
    (any : s.queue.any leaves = true) (waiting : ∀ o ∈ s.queue, o.slot = none → leaves o = true)
    (h : PortId) (k : ReqKind) (tag : Byte) (st : Status) (rs : List Byte) :
    ((s.dropEntries leaves).answered h k tag st rs).finish
      = { s.answered h k tag st rs with queue := s.queue.filter fun o => !leaves o } := by
  let u : State := { s.answered h k tag st rs with
    queue := s.queue.filter fun o => !leaves o, scratch := { s.scratch with scan := true } }
  have form : (s.dropEntries leaves).answered h k tag st rs = u := by
    rw [State.dropEntries, if_pos any]
    rfl
  have nobody : ∀ o ∈ u.queue, o.slot ≠ none := fun o m waits => by
    obtain ⟨mem, stays⟩ := List.mem_filter.mp m
    rw [waiting o mem waits] at stays
    cases stays
  have marks : u.scratch = { scan := true } := by
    change { s.scratch with scan := true } = _
    rw [clear]
  have scan : u.scan = u := u.scan_of_nobody nobody
  have ends : u.finish = u.unmark := by
    rw [State.finish_of_scan_alone marks (by rw [scan]), scan, ite_self]
  rw [form, ends, ← State.clear_of_unmarked (s.answered h k tag st rs) clear]
  rfl

/-- Settles O31: behind the reply the queue can only have been served or returned, and a scan leaves the close alone. -/
theorem withdrawAndCloseTaken : Obligations.WithdrawAndCloseTaken := by
  intro s h tag b
  refine ⟨fun asks => ?_, fun asks => ?_⟩
  · have run : exec (.withdraw h) s = .next (s.takeWithdraw h [b]) :=
      congrArg Host.Outcome.next (State.takeRequest_of_asks asks _)
    rw [run]
    refine ⟨fun none => ?_, fun e found => ?_⟩
    · rw [State.takeWithdraw_none none, State.reply_of_asks asks]
    have own : e.port = h ∧ e.tag = b := of_decide_eq_true (List.find?_some (p := fun e : Entry => decide (e.port = h ∧ e.tag = b)) found)
    have asks' : (s.withdrawEntry e).Asks h .withdraw tag [b] :=
      ((kept_within s).withdrawEntry (.refl s) e).asks asks
    rw [State.takeWithdraw_of found, State.reply_of_asks asks']
    obtain ⟨rfl, rfl⟩ := own
    refine ⟨fun waits clear waiting => ?_, fun held => ⟨_, rfl, State.link_finish_answered .., fun o m => ?_,
      fun c x proposed hx going clear room => ?_⟩⟩
    · rw [State.withdrawEntry_waiting waits, State.withdraw_waiting clear
        (List.any_eq_true.mpr ⟨e, List.mem_of_find?_eq_some found, by simp⟩)
        (fun o m none => decide_eq_true (waiting o m none))]
      simp only [decide_not]
    · obtain ⟨o', m', port, tag', -⟩ := State.queueFrom_finish _ o m
      have gone : ∃ u : State, s.withdrawEntry e = u.dropEntries fun o => o.port = e.port ∧ o.tag = e.tag := ⟨_, rfl⟩
      obtain ⟨u, gone⟩ := gone
      obtain ⟨q, k, drops, rest⟩ := u.dropEntries_eq fun o => decide (o.port = e.port ∧ o.tag = e.tag)
      rw [gone, drops] at m'
      rw [port, tag']
      exact of_decide_eq_false (rest o' m').2
    · rw [State.withdrawEntry_proposed proposed]
      exact (State.closeBegun_answered hx going clear room .withdrawn _ _ _ _ _).2 _
  · have run : exec (.closeRequest h) s = .next (s.takeClose h [b]) :=
      congrArg Host.Outcome.next (State.takeRequest_of_asks asks _)
    rw [run]
    refine ⟨fun high => ?_, fun c slot => ?_⟩
    · rw [State.takeClose, slotOfByte_of_ge high, ← State.reply_of_asks asks]
    have taken : s.takeClose h [b] = s.closeSlot h c := by rw [State.takeClose, slotOfByte_of_lt slot]
    rw [taken]
    refine ⟨fun vacant => ?_, fun x hx => ⟨fun other => ?_, fun own closing => ?_, fun own going => ?_⟩⟩
    · rw [State.closeSlot, vacant, ← State.reply_of_asks asks]
    · rw [State.closeSlot, hx, ← State.reply_of_asks asks]
      exact congrArg _ (if_pos other)
    · rw [State.closeSlot, hx, ← State.reply_of_asks asks]
      refine congrArg _ ((if_neg (not_not.mpr own)).trans ?_)
      rw [closing]
    · have begun (why : CloseReason) : (s.beginClose c why).Asks h .close tag [b] :=
        ((kept_within s).beginClose (.refl s) c why).asks asks
      rw [State.closeSlot_going hx own going]
      split
      · have dropped : ((s.beginClose c .withdrawn).dropEntryOfSlot c).Asks h .close tag [b] :=
          ((kept_within s).dropEntries ((kept_within s).beginClose (.refl s) c .withdrawn) _).asks asks
        rw [State.reply_of_asks dropped]
        refine ⟨_, rfl, State.link_finish_answered .., fun _ o m same => ?_, fun clear room => ?_⟩
        · have closing : (s.beginClose c .withdrawn).circuit c ≠ none :=
            ((State.Follows.refl s).beginClose c .withdrawn).circuits c (by rw [hx]; exact Option.some_ne_none x)
          obtain ⟨o', m', -, -, from_⟩ := State.queueFrom_finish _ o m
          obtain ⟨q, k, drops, rest⟩ := (s.beginClose c .withdrawn).dropEntries_eq fun e => decide (e.slot = some c)
          rw [State.dropEntryOfSlot, drops] at m' from_
          rcases from_ with none | kept | ⟨d, new, vacant⟩
          · rw [none] at same
            cases same
          · exact of_decide_eq_false (rest o' m').2 (kept.symm.trans same)
          · obtain rfl := Option.some.inj (new.symm.trans same)
            exact closing vacant
        · exact (State.closeBegun_answered hx going clear room .withdrawn _ _ _ _ _).2 _
      · rename_i other
        rw [State.reply_of_asks (begun .hostClose)]
        exact ⟨_, rfl, State.link_finish_answered .., fun proposed => absurd proposed other, fun clear room =>
          (State.closeBegun_answered hx going clear room .hostClose _ _ _ _ _).1⟩

end Sys2Proof.Machine
end

section
/-! SUPPORT. Sys2Proof/Proofs/Scan.lean: what a service scan does to the setup queue, and the scan whose first service is
known (R53, R54, R58 to R60). -/

namespace Sys2Proof.Machine

open Sys2Proof

/-! ### What a service needs (R53, R54) -/

theorem List.mem_take_iff_getElem? {α : Type} {l : List α} {n : Nat} {a : α} :
    a ∈ l.take n ↔ ∃ m < n, l[m]? = some a := by
  simp only [List.mem_iff_getElem?, List.getElem?_take]
  refine exists_congr fun m => ?_
  split
  · rename_i lt
    exact (and_iff_right lt).symm
  · rename_i ge
    exact iff_of_false nofun fun h => ge h.1

theorem State.admissible_iff {s : State} {e : Entry} :
    s.admissible e = true ↔ s.trunk = .up ∧ s.vacantSlot ≠ none ∧ e.minWidth ≤ s.grantWidth e := by
  simp [State.admissible, Option.isSome_iff_ne_none]

theorem State.eligible_iff {s : State} {n : Nat} {e : Entry} :
    s.eligible n e = true ↔ ∀ o ∈ s.queue.take n, ¬(o.port = e.port ∧ o.far = e.far) := by
  simp only [State.eligible, List.all_eq_true, decide_eq_true_eq]

/-- R53, R54: what an entry at place `n` cannot be served without. -/
structure State.Servable (s : State) (n : Nat) (e : Entry) : Prop where
  waits : e.slot = none
  eligible : s.eligible n e = true
  pool : e.minWidth ≤ s.pool.length
  vacant : s.vacantSlot ≠ none

/-- R59: what a turn of a scan can do. -/
theorem State.scanTurn_cases (s : State) (cls : Cls) (n : Nat) : State.scanTurn cls s n = s
    ∨ ∃ e c, s.queue[n]? = some e ∧ s.vacantSlot = some c ∧ s.Servable n e
      ∧ State.scanTurn cls s n = s.serveInto n e c (s.grantWidth e) := by
  unfold State.scanTurn
  split
  · rename_i e c here vacant
    split
    · rename_i fit
      obtain ⟨-, waits, eligible, admissible⟩ := fit
      obtain ⟨-, some_vacant, least⟩ := State.admissible_iff.mp admissible
      exact .inr ⟨e, c, here, vacant, ⟨waits, eligible, least.trans (s.grantWidth_le e).2, some_vacant⟩, rfl⟩
    · exact .inl rfl
  · exact .inl rfl

/-! ### What turns do to the queue (R59, R60) -/

/-- What `t` is where, from `s`, turns of a scan have been taken: entries that could be served from `s` have been, and the
others stand. -/
structure State.Serves (s t : State) : Prop where
  length : t.queue.length = s.queue.length
  entry : ∀ (n : Nat) (e : Entry), s.queue[n]? = some e →
    t.queue[n]? = some e ∨ s.Servable n e ∧ ∃ c, t.queue[n]? = some (e.servedIn c)
  circuits : ∀ c, s.circuit c ≠ none → t.circuit c ≠ none
  pool : t.pool.length ≤ s.pool.length
  ports : t.ports = s.ports

theorem State.Serves.refl (s : State) : s.Serves s := ⟨rfl, fun _ _ h => .inl h, fun _ => id, le_refl _, rfl⟩

/-- What a later turn finds servable was so before: ports and places stand, the pool and the VACANT slots only shrink. -/
theorem State.Serves.servable {s t : State} (h : s.Serves t) {n : Nat} {e : Entry} (k : t.Servable n e) :
    s.Servable n e := by
  have same_ports (m : Nat) (o : Entry) (here : s.queue[m]? = some o) :
      ∃ o', t.queue[m]? = some o' ∧ o'.port = o.port ∧ o'.far = o.far := by
    rcases h.entry m o here with same | ⟨-, c, served⟩
    · exact ⟨o, same, rfl, rfl⟩
    · exact ⟨o.servedIn c, served, rfl, rfl⟩
  refine ⟨k.waits, State.eligible_iff.mpr fun o mem => ?_, k.pool.trans h.pool, fun full => k.vacant ?_⟩
  · obtain ⟨m, nearer, here⟩ := List.mem_take_iff_getElem?.mp mem
    obtain ⟨o', here', port, far⟩ := same_ports m o here
    rw [← port, ← far]
    exact State.eligible_iff.mp k.eligible o' (List.mem_take_iff_getElem?.mpr ⟨m, nearer, here'⟩)
  · exact State.vacantSlot_eq_none.mpr fun c => h.circuits c (State.vacantSlot_eq_none.mp full c)

theorem State.Serves.trans {s t u : State} (h : s.Serves t) (k : t.Serves u) : s.Serves u where
  length := k.length.trans h.length
  entry n e here := by
    rcases h.entry n e here with same | ⟨servable, c, served⟩
    · exact (k.entry n e same).imp_right fun ⟨servable, slot⟩ => ⟨h.servable servable, slot⟩
    · refine .inr ⟨servable, c, (k.entry n _ served).resolve_right fun ⟨again, _⟩ => ?_⟩
      exact Option.some_ne_none c again.waits
  circuits c held := k.circuits c (h.circuits c held)
  pool := k.pool.trans h.pool
  ports := k.ports.trans h.ports

/-- An entry that cannot be served stands. -/
theorem State.Serves.stands {s t : State} (h : s.Serves t) {n : Nat} {e : Entry} (here : s.queue[n]? = some e)
    (no : ¬s.Servable n e) : t.queue[n]? = some e :=
  (h.entry n e here).resolve_right fun served => no served.1

theorem State.serves_scanTurn (s : State) (cls : Cls) (n : Nat) : s.Serves (State.scanTurn cls s n) := by
  rcases s.scanTurn_cases cls n with idle | ⟨e, c, here, vacant, servable, serves⟩
  · rw [idle]
    exact .refl s
  · have served := s.served_serveInto n e c (s.grantWidth e)
    rw [serves]
    refine ⟨by rw [served.queue, List.length_set], fun m o at_ => ?_, fun d held => ?_, ?_, served.ports⟩
    · rw [served.queue]
      by_cases own : n = m
      · subst own
        obtain rfl := Option.some.inj (here.symm.trans at_)
        exact .inr ⟨servable, c, List.getElem?_set_self (List.getElem?_eq_some_iff.mp here).1⟩
      · exact .inl (by rw [List.getElem?_set_ne own, at_])
    · rw [served.circuit]
      split
      · exact Option.some_ne_none _
      · exact held
    · rw [served.pool]
      exact List.length_filter_le ..

/-! ### The scan, turn by turn (R59) -/

/-- A property that every turn keeps is kept by a pass. -/
theorem State.pass_keeps {P : State → Prop} (turn : ∀ u cls n, P u → P (State.scanTurn cls u n)) (cls : Cls) (l : List Nat)
    {s : State} (h : P s) : P (l.foldl (State.scanTurn cls) s) := by
  induction l generalizing s with
  | nil => exact h
  | cons n l ih => exact ih (turn s cls n h)

theorem State.scan_keeps {P : State → Prop} (turn : ∀ u cls n, P u → P (State.scanTurn cls u n)) {s : State} (h : P s) :
    P s.scan :=
  State.pass_keeps turn .shared _ (State.pass_keeps turn .reserved _ h)

theorem State.serves_scan (s : State) : s.Serves s.scan :=
  State.scan_keeps (fun u cls n h => h.trans (u.serves_scanTurn cls n)) (.refl s)

/-- A pass in which no turn serves anybody. -/
theorem State.pass_of_idle {s : State} {cls : Cls} (idle : ∀ n, State.scanTurn cls s n = s) (l : List Nat) :
    l.foldl (State.scanTurn cls) s = s := by
  induction l with
  | nil => rfl
  | cons n l ih => rw [List.foldl_cons, idle n, ih]

/-- R53: a scan serves nobody where no WAITING entry is admissible. -/
theorem State.scan_of_inadmissible {s : State} (h : ∀ e ∈ s.queue, e.slot = none → s.admissible e ≠ true) : s.scan = s := by
  have idle (cls : Cls) (n : Nat) : State.scanTurn cls s n = s :=
    State.scanTurn_idle fun e _ here _ ⟨_, waits, _, fit⟩ => h e (List.mem_of_getElem? here) waits fit
  unfold State.scan
  dsimp only
  rw [State.pass_of_idle (idle _), State.pass_of_idle (idle _)]

/-- A fold over an ordered list in which nothing acts before `a`. -/
theorem List.foldl_of_first {σ α : Type} {r : α → α → Prop} {f : σ → α → σ} {s : σ} {a : α} {l : List α}
    (sorted : l.Pairwise r) (h : a ∈ l) (rests : ∀ b, r b a → f s b = s) :
    ∃ back : List α, l.foldl f s = back.foldl f (f s a) := by
  induction l with
  | nil => cases h
  | cons b l ih =>
    obtain ⟨before, sorted⟩ := List.pairwise_cons.mp sorted
    rcases List.mem_cons.mp h with rfl | later
    · exact ⟨l, rfl⟩
    · rw [List.foldl_cons, rests b (before a later)]
      exact ih sorted later

/-- R59: the entry `e` at place `n` comes first in the scan's order: it waits, of its own class none waits nearer the head,
and where it is SHARED none that is RESERVED waits at all. -/
structure State.FirstInScan (s : State) (n : Nat) (e : Entry) : Prop where
  entry : s.queue[n]? = some e
  waits : e.slot = none
  nearer : ∀ o ∈ s.queue.take n, o.slot = none → o.cls ≠ e.cls
  shared : e.cls = .shared → ∀ o ∈ s.queue, o.slot = none → o.cls = .shared

section First

variable {s : State} {n : Nat} {e : Entry} {c : SlotId}

theorem State.FirstInScan.turn (h : s.FirstInScan n e) (vacant : s.vacantSlot = some c)
    (eligible : s.eligible n e = true) (admissible : s.admissible e = true) :
    State.scanTurn e.cls s n = s.serveInto n e c (s.grantWidth e) := by
  unfold State.scanTurn
  rw [h.entry, vacant]
  exact if_pos ⟨rfl, h.waits, eligible, admissible⟩

/-- R59: where the entry that comes first is eligible and admissible, the scan serves it before any other turn can. -/
theorem State.FirstInScan.scan (h : s.FirstInScan n e) (vacant : s.vacantSlot = some c)
    (eligible : s.eligible n e = true) (admissible : s.admissible e = true) {P : State → Prop}
    (turn : ∀ u cls m, P u → P (State.scanTurn cls u m)) (served : P (s.serveInto n e c (s.grantWidth e))) :
    P s.scan := by
  have here : n ∈ List.range s.queue.length := List.mem_range.mpr (List.getElem?_eq_some_iff.mp h.entry).1
  have before (m : Nat) (lt : m < n) : State.scanTurn e.cls s m = s :=
    State.scanTurn_idle fun o _ at_ _ ⟨cls, waits, _⟩ =>
      h.nearer o (List.mem_take_iff_getElem?.mpr ⟨m, lt, at_⟩) waits cls
  obtain ⟨back, pass⟩ := List.foldl_of_first List.pairwise_lt_range here before
  rw [h.turn vacant eligible admissible] at pass
  unfold State.scan
  dsimp only
  cases cls : e.cls with
  | reserved =>
    rw [cls] at pass
    rw [pass]
    exact State.pass_keeps turn _ _ (State.pass_keeps turn _ _ served)
  | shared =>
    have idle (m : Nat) : State.scanTurn .reserved s m = s := by
      refine State.scanTurn_idle fun o _ at_ _ ⟨other, waits, _⟩ => ?_
      cases other.symm.trans (h.shared cls o (List.mem_of_getElem? at_) waits)
    rw [cls] at pass
    rw [State.pass_of_idle idle, pass]
    exact State.pass_keeps turn _ _ served

/-- What a scan leaves behind the service of the entry that comes first. -/
theorem State.FirstInScan.behind (h : s.FirstInScan n e) (vacant : s.vacantSlot = some c)
    (eligible : s.eligible n e = true) (admissible : s.admissible e = true) (v : s.scratch.overflow = false)
    (room : s.Room (waitCount s.queue)) :
    State.Scanned (s.serveInto n e c (s.grantWidth e)) s.scan ∧ State.Serves (s.serveInto n e c (s.grantWidth e)) s.scan := by
  have first := State.scanned_scanTurn v room e.cls n
  rw [h.turn vacant eligible admissible] at first
  refine h.scan vacant eligible admissible
    (P := fun u => State.Scanned (s.serveInto n e c (s.grantWidth e)) u ∧ State.Serves (s.serveInto n e c (s.grantWidth e)) u)
    (fun u cls m before => ?_) ⟨.refl first.room, .refl _⟩
  obtain ⟨scanned, serves⟩ := before
  have loss : u.scratch.overflow = false := by rw [scanned.marks, first.marks, v]
  exact ⟨scanned.trans (State.scanned_scanTurn loss scanned.room cls m), serves.trans (u.serves_scanTurn cls m)⟩

/-- What a scan leaves of the entry that comes first: it is served as `State.Served` says, and where it takes the whole pool
nobody else is. -/
theorem State.FirstInScan.proposes (h : s.FirstInScan n e) (vacant : s.vacantSlot = some c)
    (eligible : s.eligible n e = true) (admissible : s.admissible e = true) (v : s.scratch.overflow = false)
    (room : s.Room (waitCount s.queue)) (nd : s.pool.Nodup) {w : Nat} (width : s.grantWidth e = w) :
    s.scan.queue[n]? = some (e.servedIn c) ∧ s.scan.circuit c = some (s.proposal e c w)
    ∧ (∀ k i, (s.pool.take w)[k]? = some i → s.scan.lane i = (s.lane i).claimedFor ⟨c, .current, k⟩)
    ∧ (∃ back, s.scan.placed = s.placed ++ s.setupMsg e c w :: back)
    ∧ (w = s.pool.length → ∀ m o, m ≠ n → s.queue[m]? = some o → 1 ≤ o.minWidth → s.scan.queue[m]? = some o) := by
  obtain ⟨scanned, serves⟩ := h.behind vacant eligible admissible v room
  have served := s.served_serveInto n e c (s.grantWidth e)
  rw [width] at scanned serves served
  generalize s.serveInto n e c w = t at scanned serves served
  have some_waits : 0 < waitCount s.queue :=
    List.countP_pos_iff.mpr ⟨e, List.mem_of_getElem? h.entry, decide_eq_true h.waits⟩
  obtain ⟨-, sent, -⟩ := served.sends v 0 (room.mono some_waits)
  obtain ⟨back, placed⟩ := scanned.placed
  have lt := (List.getElem?_eq_some_iff.mp h.entry).1
  refine ⟨serves.stands ?_ fun k => Option.some_ne_none c k.waits,
    scanned.circuits c _ ((served.circuit c).trans (if_pos rfl)), fun k i at_ => ?_,
    ⟨back, by rw [placed, sent, List.append_assoc, List.singleton_append]⟩, fun whole m o ne here wide => ?_⟩
  · rw [served.queue, List.getElem?_set_self lt]
  · have out : i ∉ t.pool := by
      rw [served.pool]
      exact fun mem => of_decide_eq_true (List.mem_filter.mp mem).2 (List.mem_of_getElem? at_)
    rw [(scanned.lanes i out).1]
    exact served.taken (nd.sublist (List.take_sublist ..)) k i at_
  · refine serves.stands (by rw [served.queue, List.getElem?_set_ne ne.symm, here]) fun k => ?_
    have empty : t.pool = [] := by
      rw [served.pool, List.filter_not_mem_take nd, whole, List.drop_length]
    have few := k.pool
    rw [empty] at few
    exact Nat.not_le.mpr wide few

end First

/-! ### The end of an event with a scan (R58, R72, R130) -/

/-- R58: the scan of an event's end, where it is due. -/
def State.scanIfDue (s : State) : State := if s.scratch.scan then s.scan else s

/-- The end of an event in which the pool has not grown and no message has met a full send queue. -/
theorem State.finish_of_ungrown {s : State} (growth : s.scratch.grown = false)
    (loss : s.scanIfDue.scratch.overflow = false) :
    s.finish = (if s.scanIfDue.scratch.grant then s.scanIfDue.grant else s.scanIfDue).unmark := by
  have same : s.reportGrowth = s := if_neg (by rw [growth]; exact Bool.false_ne_true)
  unfold State.finish
  rw [same]
  change (State.overflowLoss (if s.scanIfDue.scratch.grant then s.scanIfDue.grant else s.scanIfDue)).unmark = _
  refine congrArg State.unmark (if_neg fun lost => ?_)
  split at lost
  · obtain ⟨ls, q, us, granted, -⟩ := s.scanIfDue.grant_eq
    rw [granted] at lost
    exact Bool.false_ne_true (loss.symm.trans lost.1)
  · exact Bool.false_ne_true (loss.symm.trans lost.1)

end Sys2Proof.Machine
end

section
/-! SUPPORT. Sys2Proof/Proofs/ScanOrder.lean: the scan that the WITHDRAW of a WAITING entry triggers (R53, R54, R58 to R60,
R62). -/

namespace Sys2Proof.Machine

open Sys2Proof

/-- R62: the WITHDRAW of a WAITING entry, up to the scan that it triggers: the entry has left, and the reply stands. -/
def State.withdrawn (s : State) (h : PortId) (tag : Byte) (q : List Entry) : State :=
  { s.answered h .withdraw tag .ok [] with queue := q, scratch := { scan := true } }

/-- R58, R62: the scan that the WITHDRAW of a WAITING entry triggers is its event's work. -/
theorem State.exec_withdraw_waiting {s : State} {h : PortId} {tag b : Byte} {gone : Entry} {q : List Entry}
    (asks : s.Asks h .withdraw tag [b]) (found : s.queue.find? (fun e => e.port = h ∧ e.tag = b) = some gone)
    (waits : gone.slot = none) (rest : q = s.queue.filter fun o => decide (¬(o.port = h ∧ o.tag = b)))
    (clear : s.Unmarked) (room : (s.withdrawn h tag q).Room (waitCount q)) :
    exec (.withdraw h) s = .next (s.withdrawn h tag q).scan.unmark := by
  obtain ⟨rfl, rfl⟩ : gone.port = h ∧ gone.tag = b :=
    of_decide_eq_true (List.find?_some (p := fun e : Entry => decide (e.port = h ∧ e.tag = b)) found)
  have some_leaves : s.queue.any (fun o => decide (o.port = gone.port ∧ o.tag = gone.tag)) = true :=
    List.any_eq_true.mpr ⟨gone, List.mem_of_find?_eq_some found, by simp⟩
  have left : (s.withdrawEntry gone).answered gone.port .withdraw tag .ok [] = s.withdrawn gone.port tag q := by
    rw [State.withdrawEntry_waiting waits, State.dropEntries, if_pos some_leaves, rest, State.withdrawn]
    simp only [decide_not]
    change State.answered { s with queue := _, scratch := { s.scratch with scan := true } } .. = _
    rw [clear]
    rfl
  have asks' : (s.withdrawEntry gone).Asks gone.port .withdraw tag [gone.tag] :=
    ((kept_within s).withdrawEntry (.refl s) gone).asks asks
  have scanned := State.scanned_scan rfl room
  refine congrArg Host.Outcome.next ?_
  rw [State.takeRequest_of_asks asks, State.takeWithdraw_of found, State.reply_of_asks asks', left,
    State.finish_of_scan_alone (b := true) rfl scanned.marks]
  rfl

/-- Settles O32: an entry that no turn could serve stands, and the one that comes first is served before the rest. -/
theorem serviceScanOrder : Obligations.ServiceScanOrder := by
  intro s h tag b gone q asks found waits rest matches' clear room
  have room : (s.withdrawn h tag q).Room (waitCount q) := State.Room.mono (s := s) room List.countP_le_length
  have serves := (s.withdrawn h tag q).serves_scan
  refine ⟨_, State.exec_withdraw_waiting asks found waits rest clear room, serves.length, fun n e here =>
    ⟨fun proposed => serves.stands here fun k => proposed k.waits, fun unfit => serves.stands here fun k => ?_,
      fun c w g waiting apart first vacant tagged width least reserved => ?_⟩⟩
  · rcases unfit with ⟨o, mem, same⟩ | few | full
    · exact State.eligible_iff.mp k.eligible o mem same
    · exact Nat.not_le.mpr few k.pool
    · exact k.vacant full
  · let u := s.withdrawn h tag q
    have grant : u.grantWidth e = w := by
      rw [width]
      unfold State.grantWidth
      cases e.cls <;> rfl
    have comes_first : u.FirstInScan n e := by
      rcases first with ⟨cls, nearer⟩ | ⟨cls, shared, nearer⟩
      · refine ⟨here, waiting, fun o mem ow same => ?_, fun other => ?_⟩
        · cases (cls.symm.trans same.symm).trans (nearer o mem ow)
        · cases cls.symm.trans other
      · exact ⟨here, waiting, fun o mem ow => absurd ow (nearer o mem), fun _ => shared⟩
    have admissible : u.admissible e = true :=
      State.admissible_iff.mpr ⟨room.1, vacant ▸ Option.some_ne_none c, grant ▸ least⟩
    obtain ⟨served, circuit, taken, placed, others⟩ := comes_first.proposes vacant (State.eligible_iff.mpr apart) admissible
      rfl room matches'.1 grant
    have pooled : w ≤ s.pool.length := grant ▸ (u.grantWidth_le e).2
    obtain ⟨currents, hosts⟩ := map_newPositions (hosts := e.reserved.take w) (lanes := s.pool.take w)
      (by simp only [List.length_take]; omega)
    subst tagged
    refine ⟨served, ⟨_, circuit, rfl, rfl, rfl, rfl, rfl, currents, hosts⟩, fun k i at_ => ?_, placed, others⟩
    have lane : u.scan.unmark.lane i = (s.lane i).claimedFor ⟨c, .current, k⟩ := taken k i at_
    rw [lane]
    exact ⟨rfl, rfl⟩

end Sys2Proof.Machine
end

section
/-! SUPPORT. Sys2Proof/Proofs/OpenChecked.lean: the checks of OPEN (R55), and the OPEN that is queued (R50, R56). -/

namespace Sys2Proof.Machine

open Sys2Proof

/-! ### The checks (R55) -/

/-- R55 check 1, which parameters pass it. -/
abbrev openInRange (far cls rw mw pat : Byte) : Prop :=
  far.toNat ≤ 5 ∧ cls.toNat ≤ 1 ∧ (1 ≤ rw.toNat ∧ rw.toNat ≤ 8) ∧ (1 ≤ mw.toNat ∧ mw.toNat ≤ rw.toNat)
    ∧ (1 ≤ pat.toNat ∧ pat.toNat ≤ 15)

theorem portOfByte_isSome {b : Byte} : (portOfByte b).isSome = true ↔ b.toNat ≤ 5 := by
  unfold portOfByte
  split <;> simp <;> omega

theorem clsOf_eq {b : Byte} {cls : Cls} (h : clsOf b = some cls) : b.toNat ≤ 1 ∧ (cls = .reserved ↔ b = 0) := by
  unfold clsOf at h
  split at h
  · rename_i zero
    cases h
    exact ⟨by omega, iff_of_true rfl (BitVec.eq_of_toNat_eq zero)⟩
  · rename_i one
    cases h
    refine ⟨by omega, iff_of_false nofun ?_⟩
    rintro rfl
    cases one
  · cases h

theorem clsOf_isSome {b : Byte} (h : b.toNat ≤ 1) : ∃ cls, clsOf b = some cls := by
  unfold clsOf
  interval_cases b.toNat
  · exact ⟨_, rfl⟩
  · exact ⟨_, rfl⟩

/-- R55 check 1: what the parameters that pass it say. -/
theorem openParams_some {far cls rw mw pat : Byte} {o : OpenParams} (h : openParams [far, cls, rw, mw, pat] = some o) :
    openInRange far cls rw mw pat ∧ (o.cls = .reserved ↔ cls = 0) ∧ o.reqWidth = rw.toNat ∧ o.minWidth = mw.toNat := by
  unfold openParams at h
  dsimp only at h
  split at h
  · rename_i port c hport hcls
    split at h
    · rename_i ranges
      cases h
      obtain ⟨low, reserved⟩ := clsOf_eq hcls
      obtain ⟨r1, r2, m1, m2, p1, p2⟩ := ranges
      exact ⟨⟨portOfByte_isSome.mp (by rw [hport]; rfl), low, ⟨r1, r2⟩, ⟨m1, m2⟩, p1, p2⟩, reserved, rfl, rfl⟩
    · cases h
  · cases h

/-- R55 check 1: parameters in range pass it. -/
theorem openParams_of_inRange {far cls rw mw pat : Byte} (h : openInRange far cls rw mw pat) :
    ∃ o, openParams [far, cls, rw, mw, pat] = some o := by
  obtain ⟨hfar, hcls, ⟨r1, r2⟩, ⟨m1, m2⟩, p1, p2⟩ := h
  obtain ⟨port, hport⟩ := Option.isSome_iff_exists.mp (portOfByte_isSome.mpr hfar)
  obtain ⟨c, hc⟩ := clsOf_isSome hcls
  unfold openParams
  dsimp only
  rw [hport, hc]
  exact ⟨_, if_pos ⟨r1, r2, m1, m2, p1, p2⟩⟩

theorem State.exec_openCircuit {s : State} {h : PortId} {tag : Byte} {params : List Byte}
    (asks : s.Asks h .openCircuit tag params) : exec (.openCircuit h) s = .next (s.takeOpen h tag params) := by
  refine congrArg Host.Outcome.next ?_
  rw [State.takeRequest_of_asks asks, State.requestTag_of_asks asks]

/-- R55: an OPEN whose parameters pass check 1 is answered by the first of checks 2 to 8 that fails. -/
theorem State.exec_open_refused {s : State} {h : PortId} {tag : Byte} {params : List Byte} {o : OpenParams} {st : Status}
    (asks : s.Asks h .openCircuit tag params) (given : openParams params = some o)
    (refused : s.openRefusal h tag o = some st) :
    exec (.openCircuit h) s = .next (s.answered h .openCircuit tag st []) := by
  rw [State.exec_openCircuit asks, ← State.reply_of_asks asks]
  simp only [State.takeOpen, given, refused]

/-- One check of a chain: where it fails it gives the reply, and else the checks behind it do. -/
theorem first_of_chain {c p : Prop} [Decidable c] {st reply : Status} {behind : Option Status}
    (chain : if c then st = reply else p) (k : p → behind = some st) : (if c then some reply else behind) = some st := by
  by_cases fails : c
  · rw [if_pos fails] at chain ⊢
    rw [chain]
  · rw [if_neg fails] at chain ⊢
    exact k chain

/-- Settles O28: by check 1, and by the order of the checks after it. -/
theorem openRefused : Obligations.OpenRefused := by
  intro s h tag far cls rw mw pat asks
  refine ⟨fun bad => ?_, fun hfar hcls r1 r2 m1 m2 p1 p2 st chain => ?_⟩
  · have none : openParams [far, cls, rw, mw, pat] = none :=
      Option.eq_none_iff_forall_ne_some.mpr fun o some => bad (openParams_some some).1
    rw [State.exec_openCircuit asks, ← State.reply_of_asks asks]
    simp only [State.takeOpen, none]
  · obtain ⟨o, given⟩ := openParams_of_inRange ⟨hfar, hcls, ⟨r1, r2⟩, ⟨m1, m2⟩, p1, p2⟩
    obtain ⟨-, reserved, width, least⟩ := openParams_some given
    refine State.exec_open_refused asks given ?_
    simp only [State.openRefusal, State.portLoad, List.any_eq_true, decide_eq_true_eq, reserved, width, least]
    exact first_of_chain chain fun chain => first_of_chain chain fun chain => first_of_chain chain fun chain =>
      first_of_chain chain fun chain => first_of_chain chain fun chain => first_of_chain chain fun chain =>
      first_of_chain chain False.elim

/-! ### The OPEN that is queued (R50, R56) -/

theorem openParams_length {params : List Byte} {o : OpenParams} (h : openParams params = some o) :
    ∃ far cls rw mw pat, params = [far, cls, rw, mw, pat] := by
  unfold openParams at h
  split at h
  · exact ⟨_, _, _, _, _, rfl⟩
  · cases h

theorem one_le_minWidth_of_openParams {params : List Byte} {o : OpenParams} (h : openParams params = some o) :
    1 ≤ o.minWidth := by
  obtain ⟨far, cls, rw, mw, pat, rfl⟩ := openParams_length h
  obtain ⟨⟨-, -, -, ⟨m1, -⟩, -⟩, -, -, least⟩ := openParams_some h
  rwa [least]

/-- R53: an empty pool serves nobody whose minimum is at least 1. -/
theorem State.scan_of_pool_empty {s : State} (empty : s.pool = []) (wide : ∀ e ∈ s.queue, 1 ≤ e.minWidth) : s.scan = s := by
  refine State.scan_of_inadmissible fun e mem _ admissible => ?_
  have least := (State.admissible_iff.mp admissible).2.2
  have few := (s.grantWidth_le e).2
  rw [empty, List.length_nil] at few
  have := wide e mem
  omega

/-- R56: an OPEN whose entry waits behind its scan. -/
theorem State.replyOpen_waits {s : State} {h : PortId} {tag : Byte} {a : Half} {e : Entry}
    (found : s.queue.find? (fun e => e.port = h ∧ e.tag = tag) = some e) (waits : e.slot = none) :
    s.replyOpen h tag a = s.reply h .queued (halfBytes a) := by
  simp only [State.replyOpen, found, Option.bind_some, waits]

/-- Settles O29: the scan serves nobody, so that the new entry is found waiting. -/
theorem openQueued : Obligations.OpenQueued := by
  intro s h tag params o asks given pass empty wide clear
  let u := s.appendEntry h tag o
  have queue : u.queue = s.queue ++ [s.openEntry h tag o] := rfl
  have still : u.scan = u := by
    refine State.scan_of_pool_empty empty fun e mem => ?_
    rcases List.mem_append.mp (queue ▸ mem) with old | new
    · exact wide e old
    · rw [List.mem_singleton.mp new]
      exact one_le_minWidth_of_openParams given
  have fresh : s.queue.any (fun e => decide (e.port = h ∧ e.tag = tag)) = false := by
    unfold State.openRefusal at pass
    split at pass
    · cases pass
    · rename_i none
      exact Bool.eq_false_iff.mpr none
  have found : u.queue.find? (fun e => e.port = h ∧ e.tag = tag) = some (s.openEntry h tag o) := by
    rw [queue, List.find?_append, List.find?_eq_none.mpr fun e mem => ?_]
    · simp [State.openEntry]
    · exact List.any_eq_false.mp fresh e mem
  have askedU : u.Asks h .openCircuit tag params := asks
  rw [State.exec_openCircuit asks, State.takeOpen_of_pass given pass]
  change Host.Outcome.next ((u.scan).replyOpen h tag s.arrivals).finish = _
  rw [still, State.replyOpen_waits found rfl, State.reply_of_asks askedU, State.finish_of_unmarked]
  · rfl
  · exact clear

end Sys2Proof.Machine
end

section
/-! SUPPORT. Sys2Proof/Proofs/Patience.lean: the sweep tick at which entries of the setup queue expire (R58, R61, R97). -/

namespace Sys2Proof.Machine

open Sys2Proof

/-! ### Patience, entry by entry (R61) -/

theorem Entry.expired_tick (e : Entry) :
    e.tick.expired = (decide (e.slot = none) && decide (e.patience ≤ 1)) := by
  unfold Entry.tick Entry.expired
  split
  · rename_i waits
    simp [waits]
    omega
  · rename_i proposed
    simp [proposed]

theorem Entry.tick_port (e : Entry) : e.tick.port = e.port ∧ e.tick.tag = e.tag := by
  unfold Entry.tick
  split <;> exact ⟨rfl, rfl⟩

/-- R61: an entry behind a tick: one that has run out of patience while WAITING is gone. -/
def Entry.kept (e : Entry) : Option Entry :=
  if e.slot ≠ none then some e else if e.patience ≤ 1 then none else some { e with patience := e.patience - 1 }

theorem Entry.kept_eq (e : Entry) : e.kept = Option.guard (fun o => !o.expired) e.tick := by
  rw [Option.guard, e.expired_tick, Entry.kept, Entry.tick]
  by_cases waits : e.slot = none
  · by_cases last : e.patience ≤ 1 <;> simp [waits, last]
  · simp [waits]

/-- R61: the queue behind the counting, as the ticked entries that have not expired. -/
theorem filter_tick_eq_filterMap_kept (q : List Entry) :
    (q.map Entry.tick).filter (fun e => !e.expired) = q.filterMap Entry.kept := by
  rw [← List.filterMap_eq_filter, List.filterMap_map]
  exact List.filterMap_congr fun e _ => e.kept_eq.symm

theorem filter_expired_tick (q : List Entry) : (q.map Entry.tick).filter Entry.expired
    = (q.filter fun e => decide (e.slot = none) && decide (e.patience ≤ 1)).map Entry.tick := by
  rw [List.filter_map]
  exact congrArg _ (List.filter_congr fun e _ => e.expired_tick)

/-! ### The notices (R61, R160) -/

/-- R160: notices placed one after the other: each port receives its own, in their order. -/
theorem State.foldl_notify {α : Type} (who : α → PortId) (n : α → Notice) (l : List α) (s : State) : ∃ ps,
    l.foldl (fun s a => s.notify (who a) (n a)) s = { s with ports := ps }
    ∧ ∀ h, (s.port h).link ≠ .absent → (ps.get h).notices
        = ((l.filter fun a => who a = h).map n).foldl queueNotice (s.port h).notices := by
  induction l generalizing s with
  | nil => exact ⟨s.ports, rfl, fun _ _ => rfl⟩
  | cons a l ih =>
    obtain ⟨ps, placed, told⟩ := ih (s.notify (who a) (n a))
    obtain ⟨ps', first⟩ := s.notify_eq (who a) (n a)
    refine ⟨ps, by rw [List.foldl_cons, placed, first], fun h present => ?_⟩
    have port := s.port_notify (who a) h (n a)
    by_cases own : who a = h
    · subst own
      rw [if_pos ⟨rfl, present⟩] at port
      rw [told _ (by rw [port]; exact present), port, List.filter_cons_of_pos (by simp)]
      rfl
    · rw [if_neg fun k => own k.1.symm] at port
      rw [told h (by rw [port]; exact present), port, List.filter_cons_of_neg (by simpa using own)]

/-- R58, R61: what the counting of patience leaves. -/
theorem State.countPatience_eq (s : State) : ∃ ps due,
    s.countPatience = { s with
      queue := s.queue.filterMap Entry.kept, ports := ps, scratch := { s.scratch with scan := due } }
    ∧ ∀ h, (s.port h).link ≠ .absent → (ps.get h).notices
      = (((s.queue.filter fun e => decide (e.slot = none) && decide (e.patience ≤ 1)).filter fun e => e.port = h).map
          fun e => Notice.openExpired e.tag).foldl queueNotice (s.port h).notices := by
  let ticked : State := { s with queue := s.queue.map Entry.tick }
  let gone := s.queue.filter fun e => decide (e.slot = none) && decide (e.patience ≤ 1)
  have left : ∃ due, ticked.dropEntries Entry.expired
      = { s with queue := s.queue.filterMap Entry.kept, scratch := { s.scratch with scan := due } } := by
    rw [← filter_tick_eq_filterMap_kept]
    unfold State.dropEntries
    split
    · exact ⟨true, rfl⟩
    · rename_i none
      refine ⟨s.scratch.scan, ?_⟩
      rw [List.filter_eq_self.mpr fun e mem => ?_]
      simpa using List.any_eq_false.mp (Bool.eq_false_iff.mpr none) e mem
  obtain ⟨due, left⟩ := left
  obtain ⟨ps, placed, told⟩ := State.foldl_notify Entry.port (fun e => .openExpired e.tag) (gone.map Entry.tick)
    (ticked.dropEntries Entry.expired)
  refine ⟨ps, due, ?_, fun h present => ?_⟩
  · change ((s.queue.map Entry.tick).filter Entry.expired).foldl _ _ = _
    rw [filter_expired_tick, placed, left]
  · rw [left] at told
    rw [told h present, List.filter_map, List.map_map]
    refine congrArg (List.foldl queueNotice _) ?_
    simp only [Function.comp_def, (Entry.tick_port _).1, (Entry.tick_port _).2]
    rfl

/-! ### The tick (R12, R97, R115) -/

/-- R12: no age is counted where no lane is fenced locally. -/
theorem State.countAges_of_unfenced {s : State} (h : ∀ i, (s.lane i).localFence = false) : s.countAges = s := by
  have one (i : LaneId) : s.ageLane i = s := by
    unfold State.ageLane
    rw [h i]
  have all (l : List LaneId) : l.foldl State.ageLane s = s := by
    induction l with
    | nil => rfl
    | cons i l ih => rw [List.foldl_cons, one i, ih]
  unfold State.countAges
  rw [all, ite_self]

/-- R97: a sweep tick that counts neither an age nor a repair's patience. -/
theorem State.swept_of_patience_alone {s : State} (seeking : s.seeking = []) (clear : s.Unmarked)
    (unfenced : ∀ i, (s.lane i).localFence = false) : s.swept = s.sweepBegin.countPatience.sweep.finish := by
  have aged : s.sweepBegin.countAges = s.sweepBegin := State.countAges_of_unfenced unfenced
  have marks : s.sweepBegin.scratch.grown = false := congrArg Scratch.grown clear
  have still : s.sweepBegin.reportGrowth = s.sweepBegin := if_neg (by rw [marks]; exact Bool.false_ne_true)
  have sought : s.sweepBegin.countSeeking = s.sweepBegin := by
    have none : s.sweepBegin.seeking = [] := seeking
    rw [State.countSeeking, none]
    rfl
  unfold State.swept State.sweepReleased
  rw [aged, still, sought]

/-- The end of an event with room for every entry that waits: the queue has been served, if at all, by an UP trunk's scan,
and no port hears of it. -/
theorem State.serves_finish {s : State} (growth : s.scratch.grown = false) (loss : s.scratch.overflow = false)
    (room : s.trunk = .up → s.Room (waitCount s.queue)) : ∃ u, s.Serves u ∧ (s.trunk ≠ .up → u = s)
    ∧ s.finish.queue = u.queue ∧ s.finish.ports = u.ports := by
  have down (h : s.trunk ≠ .up) : s.scanIfDue = s := by
    unfold State.scanIfDue
    rw [State.scan_of_not_up s h, ite_self]
  have marks : s.scanIfDue.scratch.overflow = false := by
    by_cases up : s.trunk = .up
    · unfold State.scanIfDue
      split
      · rw [(State.scanned_scan loss (room up)).marks, loss]
      · exact loss
    · rw [down up, loss]
  obtain ⟨ls, q, us, ends, -⟩ := s.scanIfDue.ite_grant_eq
  refine ⟨s.scanIfDue, ?_, down, ?_⟩
  · unfold State.scanIfDue
    split
    · exact s.serves_scan
    · exact .refl s
  · rw [State.finish_of_ungrown growth marks, ends]
    exact ⟨rfl, rfl⟩

/-- Settles O59: the counting takes out those that have expired and tells their ports; what comes behind it only serves. -/
theorem openExpires : Obligations.OpenExpires := by
  intro s ms gone kept timer seeking clear unfenced room hgone hkept
  have runs : s.sweepTimer.runs = true := by rw [timer]; rfl
  have named (e : Entry) (mem : e ∈ gone) : s.expiresNext e.port e.tag = true := by
    rw [hgone, List.mem_filter] at mem
    obtain ⟨mem, last⟩ := mem
    simp only [Bool.and_eq_true, decide_eq_true_eq] at last
    exact List.any_eq_true.mpr ⟨e, mem, decide_eq_true ⟨rfl, rfl, last⟩⟩
  obtain ⟨ps, due, counted, told⟩ := s.sweepBegin.countPatience_eq
  have queue : s.sweepBegin.queue.filterMap Entry.kept = kept := hkept.symm
  rw [queue] at counted
  obtain ⟨ls, q, g, r, n, swept, -⟩ := s.sweepBegin.countPatience.sweep_eq
  rw [counted] at swept
  have marks : s.sweepBegin.scratch = {} := clear
  have few : waitCount kept ≤ s.queue.length :=
    List.countP_le_length.trans (hkept ▸ List.length_filterMap_le ..)
  obtain ⟨u, serves, down, finalQueue, finalPorts⟩ := State.serves_finish (s := s.sweepBegin.countPatience.sweep)
    (by rw [counted, swept, marks]) (by rw [counted, swept, marks]) (fun up => by
      rw [counted, swept] at up ⊢
      exact (room up).mono few)
  rw [counted, swept] at serves down finalQueue finalPorts
  have tick : s.sweepTickIf true = s.swept := if_pos ⟨runs, rfl⟩
  refine ⟨s.swept, congrArg Host.Outcome.next tick, fun e mem => congrArg Host.Outcome.next (if_pos ⟨runs, named e mem⟩), ?_⟩
  rw [State.swept_of_patience_alone seeking clear unfenced, counted, swept, finalQueue]
  refine ⟨serves.length, fun m e here => ?_, fun h present => ?_⟩
  · rcases serves.entry m e here with same | ⟨servable, c, served⟩
    · exact .inl same
    · by_cases up : s.trunk = .up
      · exact .inr ⟨up, servable.waits, c, served⟩
      · rw [down up]
        exact .inl here
  · rw [State.port, finalPorts, serves.ports, hgone]
    exact told h present

end Sys2Proof.Machine
end

section
/-! SUPPORT. Sys2Proof/Proofs/Frame.lean: what messages, reports, results, ticks and requests leave alone: the frame of each
kind of command, as one property that the shared work keeps. -/

namespace Sys2Proof.Machine

open Sys2Proof

/-! ### Frames -/

/-- `u` keeps what `State.Within` names, but for the fields that `base` takes from `u` itself. -/
def State.FramedBy (base : State → State) (u : State) : Prop := (base u).Within u

/-- The shared work keeps such a frame where what `base` takes is left alone by it. -/
theorem kept_framedBy {base : State → State} (h : ∀ u v : State, u.Within v → base v = base u) :
    Kept (State.FramedBy base) :=
  kept_of_within fun u v w f => by
    rw [State.FramedBy, h u v w]
    exact State.Within.trans f w

/-! ### Messages (R132) -/

/-- R132: a sequenced message moves the expected seq. -/
def State.messageBase (s u : State) : State := { s with expectedSeq := u.expectedSeq }

theorem kept_messageBase (s : State) : Kept (State.FramedBy s.messageBase) :=
  kept_framedBy fun u v w => by simp only [State.messageBase, w.expectedSeq]

theorem State.receive_framed (s : State) (q a : Seq) {deliver : State → State}
    (owner : ∀ u, State.FramedBy s.messageBase u → State.FramedBy s.messageBase (deliver u)) :
    State.FramedBy s.messageBase (s.receive q a deliver) := by
  have k := kept_messageBase s
  have start : State.FramedBy s.messageBase s := State.Within.refl s
  unfold State.receive
  split
  · unfold State.discardFrame
    split
    · exact start
    · exact k.part s _ _ start
  · have acked : State.FramedBy s.messageBase (State.acknowledge { s with silenceCount := 0 } a) :=
      k.acknowledge (k.rest s _ _ _ _ _ _ _ _ _ _ _ _ _ start) a
    dsimp only
    generalize State.acknowledge { s with silenceCount := 0 } a = u at acked ⊢
    split
    · have counted : State.FramedBy s.messageBase { u with expectedSeq := u.expectedSeq + 1 } :=
        { acked with expectedSeq := rfl }
      exact k.finish (owner _ (k.scratch counted _))
    · exact acked

theorem exec_message_framed {s t : State} (m : Msg) (q a : Seq) (h : exec (m.command q a) s = .next t) :
    State.FramedBy s.messageBase t := by
  have k := kept_messageBase s
  cases m with
  | setup => cases h; exact s.receive_framed q a fun _ f => k.takeSetup f _ _ _ _ _ _ _
  | accept => cases h; exact s.receive_framed q a fun _ f => k.takeAccept f _ _
  | refuse => cases h; exact s.receive_framed q a fun _ f => k.takeRefuse f _ _ _
  | trained => cases h; exact s.receive_framed q a fun _ f => k.takeTrained f _ _ _
  | laneFail => cases h; exact s.receive_framed q a fun _ f => k.takeLaneFail f _ _
  | amend => cases h; exact s.receive_framed q a fun _ f => k.takeAmend f _ _ _
  | amendReply => cases h; exact s.receive_framed q a fun _ f => k.takeAmendReply f _ _ _
  | close => cases h; exact s.receive_framed q a fun _ f => k.takePeerClose f _ _
  | closed => cases h; exact s.receive_framed q a fun _ f => k.takeClosed f _
  | fence => cases h; exact s.receive_framed q a fun _ f => k.takeFence f _
  | unfence => cases h; exact s.receive_framed q a fun _ f => k.takeUnfence f _

/-! ### Reports and results (R88, R102) -/

theorem exec_lossOfLock_within {s t : State} {i : LaneId} (h : exec (.lossOfLock i) s = .next t) : s.Within t := by
  have k := kept_within s
  cases h
  split
  · exact k.finish (k.declareFailing (.refl s) i _ _)
  · exact .refl s

/-- R88: a CONFIRM gives its lane a last good preset. -/
def State.resultBase (s : State) (i : LaneId) (u : State) : State :=
  s.modLane i fun l => { l with lastGood := (u.lane i).lastGood }

theorem kept_resultBase (s : State) (i : LaneId) : Kept (State.FramedBy (s.resultBase i)) :=
  kept_framedBy fun u v w => by simp only [State.resultBase, w.lastGood]

theorem State.resultBase_self (s : State) (i : LaneId) : s.resultBase i s = s := by
  have same : s.lanes.set i (s.lanes.get i) = s.lanes := Table.set_get_self ..
  unfold State.resultBase State.modLane State.lane
  rw [same]

/-- R88: the lane's record changes, and its missed sweeps stay. -/
theorem State.modLane_framed {s u : State} {i : LaneId} (w : State.FramedBy (s.resultBase i) u) (f : Lane → Lane)
    (hf : ∀ l, (f l).missed = l.missed) : State.FramedBy (s.resultBase i) (u.modLane i f) := by
  have good (v : State) (j : LaneId) : ((s.resultBase i v).lane j).lastGood
      = if j = i then (v.lane i).lastGood else (s.lane j).lastGood := by
    rw [State.resultBase, State.lane_modLane]
    split <;> rfl
  have missed (v : State) (j : LaneId) : ((s.resultBase i v).lane j).missed = (s.lane j).missed := by
    rw [State.resultBase, State.lane_modLane]
    split
    · rename_i e
      rw [e]
    · rfl
  refine { w with lastGood := fun j => ?_, missed := fun j => ?_ }
  · have before := w.lastGood j
    rw [good, State.lane_modLane] at *
    split
    · rw [State.lane_modLane_self]
    · rename_i ne
      rw [if_neg ne] at before
      exact before
  · have before := w.missed j
    rw [missed, State.lane_modLane] at *
    split
    · rename_i e
      rw [hf, ← e]
      exact before
    · exact before

theorem sendTrained_keeps {P : State → Prop} (k : Kept P) {u : State} (h : P u) (i : LaneId) (ok : Bool) :
    P (u.sendTrained i ok) := by
  unfold State.sendTrained
  split
  · exact k.send h _
  · exact h

theorem State.deliverResult_framed {s u : State} (d : Dwell) (o : DwellOutcome)
    (w : State.FramedBy (s.resultBase d.lane) u) : State.FramedBy (s.resultBase d.lane) (u.deliverResult d o) := by
  have k := kept_resultBase s d.lane
  have succeeds (best : PresetId) (figure : Byte) :
      State.FramedBy (s.resultBase d.lane) (u.trainingSucceeds d.lane best figure) := by
    have confirmed := State.modLane_framed w (Lane.confirmed u.params best figure) fun _ => rfl
    have told := sendTrained_keeps k confirmed d.lane true
    unfold State.trainingSucceeds
    dsimp only
    split
    · exact k.activate told _
    · exact k.moveLane _ _ _ (by decide) told
  unfold State.deliverResult
  split
  · unfold State.trainResult
    split
    · exact w
    · split
      · unfold State.confirmResult
        split
        · exact succeeds _ _
        · split
          · exact k.restartAttempt w _ _
          · exact k.trainingFails w _ _
      · exact k.requestDwell _ _ _ (k.lane u _ _ (fun _ => ⟨rfl, rfl, rfl, rfl⟩) w)
  · exact k.healthResult w _ _

theorem exec_dwellResult_framed {s t : State} {u : UnitId} {o : DwellOutcome} {d : Dwell}
    (h : exec (.dwellResult u o) s = .next t) (busy : s.unit u = some d) : State.FramedBy (s.resultBase d.lane) t := by
  have k := kept_resultBase s d.lane
  have start : State.FramedBy (s.resultBase d.lane) s := by
    rw [State.FramedBy, State.resultBase_self]
    exact .refl s
  have freed : State.FramedBy (s.resultBase d.lane) (State.grantDue { s with units := s.units.set u none }) :=
    { start with port := start.port }
  have run : exec (.dwellResult u o) s = .next (s.dwellEnds u d o) := by
    refine congrArg Host.Outcome.next ?_
    rw [busy]
  cases run.symm.trans h
  unfold State.dwellEnds
  dsimp only
  split
  · exact k.finish (State.deliverResult_framed d o freed)
  · exact k.finish freed

/-! ### Control ticks (R134 to R139) -/

/-- R134 to R139: a control tick moves its timer, the resend count and a join's state. -/
def State.tickBase (s u : State) : State :=
  { s with
    controlTimer := u.controlTimer, retransmissions := u.retransmissions, peerHeard := u.peerHeard, clash := u.clash,
    peerEnable := u.peerEnable, peerFences := u.peerFences, joinMask := u.joinMask, joinSent := u.joinSent }

theorem kept_tickBase (s : State) : Kept (State.FramedBy s.tickBase) :=
  kept_framedBy fun u v w => by
    simp only [State.tickBase, w.controlTimer, w.retransmissions, w.peerHeard, w.clash, w.peerEnable, w.peerFences,
      w.joinMask, w.joinSent]

section ControlTick

variable {s u : State}

theorem State.ticked_framed (w : State.FramedBy s.tickBase u) (controlTimer : Timer) (retransmissions : Nat)
    (peerHeard clash : Bool) (peerEnable peerFences joinMask : Option Mask) (joinSent : Bool) :
    State.FramedBy s.tickBase { u with
      controlTimer := controlTimer, retransmissions := retransmissions, peerHeard := peerHeard, clash := clash,
      peerEnable := peerEnable, peerFences := peerFences, joinMask := joinMask, joinSent := joinSent } :=
  { w with
    controlTimer := rfl, retransmissions := rfl, peerHeard := rfl, clash := rfl, peerEnable := rfl, peerFences := rfl,
    joinMask := rfl, joinSent := rfl }

theorem State.joinTick_framed (w : State.FramedBy s.tickBase u) : State.FramedBy s.tickBase u.joinTick :=
  State.ticked_framed ((kept_tickBase s).hand w _ _) _ _ _ _ _ _ _ true

theorem State.beginJoining_framed (w : State.FramedBy s.tickBase u) : State.FramedBy s.tickBase u.beginJoining :=
  State.ticked_framed ((kept_tickBase s).rest u _ _ _ .joining _ _ _ _ _ [] _ _ _ w) _ _ false false none none _ false

theorem State.idleAck_framed (w : State.FramedBy s.tickBase u) : State.FramedBy s.tickBase u.idleAck := by
  have k := kept_tickBase s
  unfold State.idleAck
  dsimp only
  split
  · exact k.rest u _ _ _ _ _ _ _ _ false _ _ _ _ w
  · exact k.rest _ _ _ _ _ _ _ _ _ false _ _ _ _ (k.hand w 0 .ack)

theorem State.retransmitAll_framed (w : State.FramedBy s.tickBase u) : State.FramedBy s.tickBase u.retransmitAll := by
  have k := kept_tickBase s
  have resent : State.FramedBy s.tickBase u.resend :=
    k.foldl _ (fun _ m f => k.hand f m.1 (.msg m.2)) _ (k.dropFrames w _)
  have marked : State.FramedBy s.tickBase { u.resend with mark := false } :=
    k.rest u.resend _ _ _ _ _ false _ _ _ _ _ _ _ resent
  have counted : State.FramedBy s.tickBase
      { u.resend with mark := false, retransmissions := satSucc 65535 u.retransmissions } :=
    State.ticked_framed marked _ _ _ _ _ _ _ _
  exact k.log _ _ _ _ _ counted

theorem State.upTick_framed (w : State.FramedBy s.tickBase u) : State.FramedBy s.tickBase u.upTick := by
  have k := kept_tickBase s
  have retry (v : State) (f : State.FramedBy s.tickBase v) : State.FramedBy s.tickBase v.retryTick := by
    have marked (b : Bool) : State.FramedBy s.tickBase { v with mark := b } := k.rest v _ _ _ _ _ b _ _ _ _ _ _ _ f
    have retried : State.FramedBy s.tickBase { v with retryCount := v.retryCount + 1 } :=
      k.rest v _ _ _ _ _ _ _ _ _ _ _ _ _ f
    unfold State.retryTick
    dsimp only
    split
    · exact State.idleAck_framed (marked false)
    · split
      · exact State.idleAck_framed (marked true)
      · split
        · exact k.goLost retried _
        · exact State.idleAck_framed (State.retransmitAll_framed retried)
  have counted : State.FramedBy s.tickBase { u with silenceCount := u.silenceCount + 1 } :=
    k.rest u _ _ _ _ _ _ _ _ _ _ _ _ _ w
  unfold State.upTick
  dsimp only
  split
  · exact k.goLost counted _
  · exact retry _ counted

theorem State.controlTickIf_framed (s : State) (due : Bool) : State.FramedBy s.tickBase (s.controlTickIf due) := by
  have start : State.FramedBy s.tickBase s := State.Within.refl s
  have timed : State.FramedBy s.tickBase { s with controlTimer := .running s.params.controlTick } :=
    State.ticked_framed start _ _ _ _ _ _ _ _
  unfold State.controlTickIf State.controlTicked
  split
  · dsimp only
    split
    · exact timed
    · exact State.joinTick_framed timed
    · exact (kept_tickBase s).finish (State.upTick_framed timed)
    · exact State.joinTick_framed (State.beginJoining_framed timed)
  · exact start

end ControlTick

/-! ### Sweep ticks (R97, R98) -/

/-- R97, R98: a sweep tick moves its timer, the sweep count and the lanes' missed sweeps. -/
def State.sweepBase (s u : State) : State :=
  { s with
    sweepTimer := u.sweepTimer, sweepCount := u.sweepCount,
    lanes := ⟨(indexes 24).map fun i => { s.lane i with missed := (u.lane i).missed }, by simp [indexes]⟩ }

theorem State.lane_sweepBase (s u : State) (i : LaneId) :
    (s.sweepBase u).lane i = { s.lane i with missed := (u.lane i).missed } := by
  simp [State.sweepBase, State.lane, Table.get, indexes]

theorem kept_sweepBase (s : State) : Kept (State.FramedBy s.sweepBase) :=
  kept_framedBy fun u v w => by simp only [State.sweepBase, w.sweepTimer, w.sweepCount, w.missed]

theorem State.healthRequest_framed {s u : State} (w : State.FramedBy s.sweepBase u) (i : LaneId) :
    State.FramedBy s.sweepBase (u.healthRequest i) := by
  unfold State.healthRequest
  split
  · refine { w with lastGood := fun j => ?_, missed := fun j => by rw [State.lane_sweepBase] }
    have before := w.lastGood j
    rw [State.lane_sweepBase] at before ⊢
    rw [State.lane_modLane]
    split
    · rename_i e
      rw [← e]
      exact before
    · exact before
  · exact (kept_sweepBase s).requestDwell u i _ w

theorem State.sweepTickIf_framed (s : State) (due : Bool) : State.FramedBy s.sweepBase (s.sweepTickIf due) := by
  have k := kept_sweepBase s
  have begun (timer : Timer) (count : Half) : State.FramedBy s.sweepBase { s with sweepTimer := timer, sweepCount := count } :=
    { State.Within.refl s with
      sweepTimer := rfl, sweepCount := rfl, lastGood := fun i => by rw [State.lane_sweepBase]; rfl
      missed := fun i => by rw [State.lane_sweepBase] }
  unfold State.sweepTickIf
  split
  · have counted : State.FramedBy s.sweepBase s.sweepReleased.countSeeking.countPatience :=
      k.countPatience (k.countSeeking (k.reportGrowth (k.countAges (begun _ _))))
    refine k.finish ?_
    generalize s.sweepReleased.countSeeking.countPatience = u at counted ⊢
    have asked := k.foldl _ (fun _ i f => State.healthRequest_framed f i) u.activeLanes counted
    unfold State.sweep
    dsimp only
    split
    · exact asked
    · exact k.log _ _ _ _ _ asked
  · exact begun _ _

end Sys2Proof.Machine
end

section
/-! SUPPORT. Sys2Proof/Proofs/RequestFrame.lean: what a request leaves alone but for its port's slots (R154), and the frame
of every command of the blocks. -/

namespace Sys2Proof.Machine

open Sys2Proof

/-! ### Answered requests (R154) -/

/-- `t` keeps what `State.Within` names of `s`, but for what stands in the slots of port `h` and for its log cursor, which
is `cursor`. -/
def State.Replies (s : State) (h : PortId) (cursor : Half) (t : State) : Prop :=
  ∃ link, State.Within (s.modPort h fun p => { p with link := link, cursor := cursor }) t

theorem kept_replies (s : State) (h : PortId) (cursor : Half) : Kept (s.Replies h cursor) :=
  kept_of_within fun _ _ w r => r.imp fun _ f => State.Within.trans f w

theorem State.replies_setCursor (s : State) (h : PortId) (cursor : Half) : s.Replies h cursor (s.setCursor h cursor) := by
  refine ⟨(s.port h).link, ?_⟩
  rw [State.modPort_congr s h (g := fun p => { p with cursor := cursor }) rfl]
  exact .refl _

theorem State.replies_self (s : State) (h : PortId) : s.Replies h (s.port h).cursor s := by
  have same : s.setCursor h (s.port h).cursor = s := by
    have ports : s.ports.set h (s.ports.get h) = s.ports := Table.set_get_self ..
    unfold State.setCursor State.modPort State.port
    rw [ports]
  have set := s.replies_setCursor h (s.port h).cursor
  rwa [same] at set

/-- R154: a reply changes what the port's slots hold. -/
theorem State.reply_eq (s : State) (h : PortId) (st : Status) (rs : List Byte) : ∃ link,
    s.reply h st rs = s.modPort h fun p => { p with link := link } := by
  unfold State.reply
  rcases held : s.port h with ⟨link, notices, rejected, cursor, steering, transaction, shiftOut⟩
  cases link with
  | working r => exact ⟨.replied ⟨r.kind.code, r.tag, st, rs⟩, s.modPort_congr h (by simp only [held])⟩
  | absent => exact ⟨.absent, s.modPort_congr h (by simp only [held])⟩
  | ready => exact ⟨.ready, s.modPort_congr h (by simp only [held])⟩
  | replied r => exact ⟨.replied r, s.modPort_congr h (by simp only [held])⟩

section Replies

variable {s u : State} {h : PortId} {cursor : Half}

theorem State.Replies.reply (r : s.Replies h cursor u) (st : Status) (rs : List Byte) :
    s.Replies h cursor (u.reply h st rs) := by
  obtain ⟨old, w⟩ := r
  obtain ⟨link, replied⟩ := u.reply_eq h st rs
  rw [replied]
  refine ⟨link, { w with port := fun g => ?_ }⟩
  obtain ⟨ns, before⟩ := w.port g
  rw [State.port_modPort] at before ⊢
  rw [State.port_modPort]
  refine ⟨ns, ?_⟩
  split
  · rename_i own
    subst own
    rw [before, if_pos rfl]
  · rename_i other
    rw [before, if_neg other]

end Replies

/-! ### Each request (R17, R18, R21, R45, R49, R55, R62, R146, R147, R172, R181, R182) -/

section Requests

variable (s : State) (h : PortId) (b : List Byte)

/-- R56: an OPEN that is queued takes an arrival number. -/
theorem State.takeOpen_replies (tag : Byte) : ∃ arrivals,
    State.Replies { s with arrivals := arrivals } h (s.port h).cursor (s.takeOpen h tag b) := by
  have refused (st : Status) : s.Replies h (s.port h).cursor (s.reply h st []) := (s.replies_self h).reply st []
  unfold State.takeOpen
  split
  · exact ⟨s.arrivals, refused _⟩
  · rename_i o _
    split
    · exact ⟨s.arrivals, refused _⟩
    · let base : State := { s with arrivals := s.arrivals + 1 }
      have k := kept_replies base h (s.port h).cursor
      have queued : base.Replies h (s.port h).cursor (s.appendEntry h tag o) :=
        k.queue (s := base) (base.replies_self h) _
      refine ⟨s.arrivals + 1, k.finish ?_⟩
      unfold State.replyOpen
      split <;> exact State.Replies.reply (k.scan queued) _ _

theorem State.takeClose_replies : s.Replies h (s.port h).cursor (s.takeClose h b) := by
  have k := kept_replies s h (s.port h).cursor
  have self := s.replies_self h
  unfold State.takeClose State.closeSlot
  split
  · split
    · exact self.reply _ _
    · split
      · exact self.reply _ _
      · split
        · exact self.reply _ _
        · split
          · exact self.reply _ _
          · exact k.finish (State.Replies.reply (k.dropEntries (k.beginClose self _ _) _) _ _)
          · exact k.finish (State.Replies.reply (k.beginClose self _ _) _ _)
  · exact self.reply _ _

theorem State.takeWithdraw_replies : s.Replies h (s.port h).cursor (s.takeWithdraw h b) := by
  have k := kept_replies s h (s.port h).cursor
  have self := s.replies_self h
  unfold State.takeWithdraw
  split
  · split
    · exact self.reply _ _
    · exact k.finish (State.Replies.reply (k.withdrawEntry self _) _ _)
  · exact self.reply _ _

theorem State.takeCircuitStatus_replies : s.Replies h (s.port h).cursor (s.takeCircuitStatus h b) := by
  unfold State.takeCircuitStatus
  split
  · split <;> exact (s.replies_self h).reply _ _
  · exact (s.replies_self h).reply _ _

theorem State.takeLaneStatus_replies : s.Replies h (s.port h).cursor (s.takeLaneStatus h b) := by
  unfold State.takeLaneStatus
  split
  · split <;> exact (s.replies_self h).reply _ _
  · exact (s.replies_self h).reply _ _

theorem State.takeReadParam_replies : s.Replies h (s.port h).cursor (s.takeReadParam h b) := by
  unfold State.takeReadParam
  split
  · split <;> exact (s.replies_self h).reply _ _
  · exact (s.replies_self h).reply _ _

/-- R172: READ_LOG moves the port's log cursor. -/
theorem State.takeReadLog_replies : ∃ cursor, s.Replies h cursor (s.takeReadLog h b) := by
  unfold State.takeReadLog State.readLog
  split
  · split
    · dsimp only
      split <;> exact ⟨_, (s.replies_setCursor h _).reply _ _⟩
    · exact ⟨_, (s.replies_self h).reply _ _⟩
  · exact ⟨_, (s.replies_self h).reply _ _⟩

/-- R101: behind a write, strikes may be clamped, or a scan may be due. -/
theorem ParamId.within_afterWrite (id : ParamId) (old : Params) : s.Within (id.afterWrite old s) := by
  unfold ParamId.afterWrite
  split
  · unfold State.clampStrikes
    split
    · refine s.within_lanes _ _ _ s.scratch fun i => ?_
      rw [Table.get_map]
      unfold Lane.clampStrikes
      split <;> exact ⟨rfl, rfl⟩
    · exact .refl s
  · exact (kept_within s).scratch (.refl s) _
  · exact (kept_within s).scratch (.refl s) _
  · exact .refl s

/-- R182: a write changes the parameters. -/
theorem State.takeWriteParam_replies : ∃ params,
    State.Replies { s with params := params } h (s.port h).cursor (s.takeWriteParam h b) := by
  have refused (st : Status) : s.Replies h (s.port h).cursor (s.reply h st []) := (s.replies_self h).reply st []
  have written (id : ParamId) (v : Mask) : ∃ params,
      State.Replies { s with params := params } h (s.port h).cursor (s.writeParam h id v) := by
    let base : State := { s with params := s.params.write id v }
    unfold State.writeParam
    split
    · exact ⟨s.params, refused _⟩
    · obtain ⟨link, self⟩ := base.replies_self h
      have after : base.Replies h (s.port h).cursor (id.afterWrite s.params base) :=
        ⟨link, State.Within.trans self (id.within_afterWrite base s.params)⟩
      exact ⟨_, (kept_replies base h _).finish (after.reply _ _)⟩
  unfold State.takeWriteParam
  split
  · split
    · exact ⟨s.params, refused _⟩
    · exact written _ _
  · exact ⟨s.params, refused _⟩

theorem State.takeLane1_replies (act : LaneId → State) (owner : ∀ i, s.Within (act i)) :
    s.Replies h (s.port h).cursor (s.takeLane1 h act b) := by
  obtain ⟨link, self⟩ := s.replies_self h
  unfold State.takeLane1
  split
  · split
    · exact State.Replies.reply ⟨link, self⟩ _ _
    · rename_i i _
      have acted : s.Replies h (s.port h).cursor (act i) := ⟨link, State.Within.trans self (owner i)⟩
      exact (kept_replies s h _).finish (acted.reply _ _)
  · exact State.Replies.reply ⟨link, self⟩ _ _

/-- R146: a restart sets a join's state where it begins a JOINING period. -/
theorem State.restart_replies : ∃ peerHeard clash peerEnable peerFences joinMask joinSent,
    State.Replies { s with
      peerHeard := peerHeard, clash := clash, peerEnable := peerEnable, peerFences := peerFences, joinMask := joinMask,
      joinSent := joinSent } h (s.port h).cursor (s.restartByHost.reply h .ok []).finish := by
  have self := s.replies_self h
  have ended {base u : State} (r : base.Replies h (s.port h).cursor u) :
      base.Replies h (s.port h).cursor (u.reply h .ok []).finish :=
    (kept_replies base h _).finish (r.reply _ _)
  unfold State.restartByHost
  split
  · exact ⟨s.peerHeard, s.clash, s.peerEnable, s.peerFences, s.joinMask, s.joinSent,
      ended ((kept_replies s h _).goLost self _)⟩
  · let base : State := { s with
      peerHeard := false, clash := false, peerEnable := none, peerFences := none,
      joinMask := some s.params.enableMask, joinSent := false }
    have begun : base.Replies h (s.port h).cursor s.beginJoining :=
      (kept_replies base h _).rest base _ _ _ .joining _ _ _ _ _ [] _ _ _ (base.replies_self h)
    exact ⟨_, _, _, _, _, _, ended begun⟩
  · exact ⟨s.peerHeard, s.clash, s.peerEnable, s.peerFences, s.joinMask, s.joinSent, ended self⟩
  · exact ⟨s.peerHeard, s.clash, s.peerEnable, s.peerFences, s.joinMask, s.joinSent, ended self⟩

end Requests

/-! ### The frame of every request -/

/-- `t` keeps of `s` what the request `c` at port `h` leaves alone. -/
def State.RequestFrame (c : Instr) (s : State) (h : PortId) (t : State) : Prop :=
  (c ≠ .openCircuit h → t.arrivals = s.arrivals)
    ∧ (c ≠ .restartTrunk h → t.peerHeard = s.peerHeard ∧ t.clash = s.clash ∧ t.peerEnable = s.peerEnable
        ∧ t.peerFences = s.peerFences ∧ t.joinMask = s.joinMask ∧ t.joinSent = s.joinSent)
    ∧ ∃ link cursor, (c ≠ .readLog h → cursor = (s.port h).cursor) ∧
        State.Within
          (State.modPort { s with
            params := t.params, arrivals := t.arrivals, peerHeard := t.peerHeard, clash := t.clash,
            peerEnable := t.peerEnable, peerFences := t.peerFences, joinMask := t.joinMask, joinSent := t.joinSent }
            h fun p => { p with link := link, cursor := cursor }) t

/-- What a state that answers the request from a changed `s` shows is what was changed. -/
theorem State.Replies.frame {c : Instr} {s t : State} {h : PortId} {cursor : Half} {params : Params} {arrivals : Half}
    {peerHeard clash : Bool} {peerEnable peerFences joinMask : Option Mask} {joinSent : Bool}
    (r : State.Replies { s with
      params := params, arrivals := arrivals, peerHeard := peerHeard, clash := clash, peerEnable := peerEnable,
      peerFences := peerFences, joinMask := joinMask, joinSent := joinSent } h cursor t)
    (opens : c ≠ .openCircuit h → arrivals = s.arrivals)
    (restarts : c ≠ .restartTrunk h → peerHeard = s.peerHeard ∧ clash = s.clash ∧ peerEnable = s.peerEnable
      ∧ peerFences = s.peerFences ∧ joinMask = s.joinMask ∧ joinSent = s.joinSent)
    (reads : c ≠ .readLog h → cursor = (s.port h).cursor) : State.RequestFrame c s h t := by
  obtain ⟨link, w⟩ := r
  obtain rfl : t.params = params := w.params
  obtain rfl : t.arrivals = arrivals := w.arrivals
  obtain rfl : t.peerHeard = peerHeard := w.peerHeard
  obtain rfl : t.clash = clash := w.clash
  obtain rfl : t.peerEnable = peerEnable := w.peerEnable
  obtain rfl : t.peerFences = peerFences := w.peerFences
  obtain rfl : t.joinMask = joinMask := w.joinMask
  obtain rfl : t.joinSent = joinSent := w.joinSent
  exact ⟨opens, restarts, link, cursor, reads, w⟩

/-- A request that writes its port's slots alone of what `State.Within` names. -/
theorem State.Replies.frame_self {s t : State} {h : PortId} (r : s.Replies h (s.port h).cursor t) (c : Instr) :
    State.RequestFrame c s h t :=
  State.Replies.frame (s := s) r (fun _ => rfl) (fun _ => ⟨rfl, rfl, rfl, rfl, rfl, rfl⟩) fun _ => rfl

/-- A port that holds no such request has none taken. -/
theorem State.takeRequest_frame {c : Instr} {s : State} {h : PortId} {kind : ReqKind} {act : List Byte → State}
    (owner : ∀ b, State.RequestFrame c s h (act b)) : State.RequestFrame c s h (s.takeRequest h kind act) := by
  unfold State.takeRequest
  split
  · exact (s.replies_self h).frame_self c
  · exact owner _

/-- The twelve requests of port `h`. -/
abbrev requestsOf (h : PortId) : List Instr :=
  [.openCircuit h, .closeRequest h, .withdraw h, .circuitStatus h, .laneStatus h, .trunkStatus h, .readLog h, .readParam h,
    .writeParam h, .fenceLane h, .unfenceLane h, .restartTrunk h]

theorem exec_request_frame {s t : State} {h : PortId} {c : Instr} (e : exec c s = .next t) (mem : c ∈ requestsOf h) :
    State.RequestFrame c s h t := by
  have k := kept_within s
  have joins : s.peerHeard = s.peerHeard ∧ s.clash = s.clash ∧ s.peerEnable = s.peerEnable
      ∧ s.peerFences = s.peerFences ∧ s.joinMask = s.joinMask ∧ s.joinSent = s.joinSent := ⟨rfl, rfl, rfl, rfl, rfl, rfl⟩
  simp only [requestsOf, List.mem_cons, List.not_mem_nil, or_false] at mem
  rcases mem with rfl | rfl | rfl | rfl | rfl | rfl | rfl | rfl | rfl | rfl | rfl | rfl
  all_goals
    cases e
    refine State.takeRequest_frame fun b => ?_
  · obtain ⟨arrivals, r⟩ := s.takeOpen_replies h b (s.requestTag h)
    exact State.Replies.frame (s := s) r (fun no => absurd rfl no) (fun _ => joins) fun _ => rfl
  · exact (s.takeClose_replies h b).frame_self _
  · exact (s.takeWithdraw_replies h b).frame_self _
  · exact (s.takeCircuitStatus_replies h b).frame_self _
  · exact (s.takeLaneStatus_replies h b).frame_self _
  · exact ((s.replies_self h).reply _ _).frame_self _
  · obtain ⟨cursor, r⟩ := s.takeReadLog_replies h b
    exact State.Replies.frame (s := s) r (fun _ => rfl) (fun _ => joins) fun no => absurd rfl no
  · exact (s.takeReadParam_replies h b).frame_self _
  · obtain ⟨params, r⟩ := s.takeWriteParam_replies h b
    exact State.Replies.frame (s := s) r (fun _ => rfl) (fun _ => joins) fun _ => rfl
  · exact (s.takeLane1_replies h b _ fun i => k.fenceByHost (.refl s) i).frame_self _
  · exact (s.takeLane1_replies h b _ fun i => k.unfenceByHost (.refl s) i).frame_self _
  · obtain ⟨_, _, _, _, _, _, r⟩ := s.restart_replies h
    exact State.Replies.frame (s := s) r (fun _ => rfl) (fun no => absurd rfl no) fun _ => rfl

/-- Settles O4: each kind of command keeps its frame. -/
theorem commandsKeepTheRest : Obligations.CommandsKeepTheRest := by
  intro c s t e
  refine ⟨fun m q a is => ?_, fun h mem => exec_request_frame e mem, fun i is => ?_, fun u o d is busy => ?_,
    fun mem => ?_, fun is => ?_⟩
  · subst is
    exact exec_message_framed m q a e
  · subst is
    exact exec_lossOfLock_within e
  · subst is
    exact exec_dwellResult_framed e busy
  · simp only [List.mem_cons, List.not_mem_nil, or_false] at mem
    rcases mem with rfl | rfl | rfl | rfl
    all_goals
      cases e
      exact s.controlTickIf_framed _
  · rcases is with rfl | ⟨i, rfl⟩ | ⟨h, g, rfl⟩ | ⟨d, p, rfl⟩
    all_goals
      cases e
      exact s.sweepTickIf_framed _

end Sys2Proof.Machine
end

section
/-! SUPPORT. Sys2Proof/Proofs/Dwells.lean: R69, R71, R72, R76: the units stay on different lanes, and the dwell queue holds
one current request a lane, after every step. -/

namespace Sys2Proof.Machine

open Sys2Proof

/-- R69, R71, R72: the forms of the Dwell Scheduler's records. -/
abbrev State.DwellsKept (s : State) : Prop := s.UnitsApart ∧ s.DwellsCurrent

theorem State.DwellsKept.congr {s t : State} (h : s.DwellsKept) (u : t.units = s.units) (q : t.dwellQueue = s.dwellQueue)
    (l : t.lanes = s.lanes) : t.DwellsKept :=
  ⟨h.1.congr u, h.2.congr q fun i => by rw [State.lane, l]; rfl⟩

/-- R19, R76: every lane's request is cancelled before the rebuild moves its run number. -/
theorem State.dwellsKept_rebuildLanes (s : State) (h : s.DwellsKept) : s.rebuildLanes.DwellsKept := by
  have rebuilt := kept_dwells.foldl
    (fun u i => (u.modLane i
      (rebuiltLane (u.enabledMask.getLsbD i.val) ((s.peerFences.getD 0).getLsbD i.val))).cancelDwell i)
    (fun u i (g : u.DwellsKept) => ⟨g.1, u.dwellsCurrent_cancel i _ g.2⟩) (indexes 24) h
  unfold State.rebuildLanes
  dsimp only
  generalize List.foldl _ s (indexes 24) = u at rebuilt ⊢
  exact State.DwellsKept.congr rebuilt rfl rfl rfl

/-- R101: a change of every lane's record that leaves the run numbers alone. -/
theorem State.dwellsCurrent_mapLanes (s : State) (f : Lane → Lane) (hf : ∀ l, (f l).run = l.run) (h : s.DwellsCurrent) :
    State.DwellsCurrent { s with lanes := s.lanes.map f } :=
  h.congr rfl fun i => by simp [State.lane, hf]

theorem State.dwellsKept_afterReset (side : Side) (steer present : Table 6 Bool) :
    (State.afterReset side steer present).DwellsKept :=
  ⟨by simp [State.unitsApart_iff], List.nodup_nil, fun _ m => nomatch m⟩

/-- Every command keeps the units apart and the dwell queue current. -/
theorem keptByEvents_dwells : KeptByEvents State.DwellsKept where
  k := kept_dwells
  ev _ _ _ _ _ _ _ _ _ _ _ _ _ _ _ _ _ h := h
  config _ _ h := h
  freeUnit s u h := ⟨s.unitsApart_free u h.1, h.2⟩
  lane' s i f hf h := ⟨h.1, s.dwellsCurrent_modLane i f (fun l => (hf l).2) h.2⟩
  lanes s f hf h := ⟨h.1, s.dwellsCurrent_mapLanes f (fun l => (hf l).2) h.2⟩
  session _ h := h
  rebuild s h := s.dwellsKept_rebuildLanes h
  reset side steer present _ _ := State.dwellsKept_afterReset side steer present

/-- Settles O12: the two forms are ones that the shared work and every command's own updates keep. -/
theorem stepKeepsDwells : Obligations.StepKeepsDwells := by
  intro s t apart current e
  unfold step at e
  split at e
  · cases e
    exact ⟨apart, current⟩
  · rename_i c rest _
    exact keptByEvents_dwells.exec_keeps (s := { s with pending := rest }) ⟨apart, current⟩ c t e

end Sys2Proof.Machine
end

section
/-! SUPPORT. Sys2Proof/Proofs/Grants.lean: the grant rule, unit by unit (R72, R73): which unit takes which request first, what
no later grant undoes, and where the rule stops. -/

namespace Sys2Proof.Machine

open Sys2Proof

/-! ### The first grant -/

theorem State.laneBusy_iff (s : State) (i : LaneId) : s.laneBusy i = true ↔ ∃ w e, s.unit w = some e ∧ e.lane = i := by
  simp [State.laneBusy, Option.any_eq_true]

theorem State.laneBusy_eq_false_iff (s : State) (i : LaneId) :
    s.laneBusy i = false ↔ ∀ w e, s.unit w = some e → e.lane ≠ i := by
  rw [← Bool.not_eq_true, State.laneBusy_iff]
  simp

/-- R72: the lowest-numbered idle unit. -/
theorem State.idleUnit_of {s : State} {v : UnitId} (idle : s.unit v = none) (lowest : ∀ w, w < v → s.unit w ≠ none) :
    s.idleUnit = some v := by
  unfold State.idleUnit
  rw [List.find?_eq_some_iff_getElem]
  refine ⟨by simp [idle], v.val, by simp [indexes], by simp [indexes], fun k lt => ?_⟩
  simpa [indexes, Option.isSome_iff_ne_none] using lowest ⟨k, lt.trans v.isLt⟩ lt

theorem State.idleUnit_eq_none_iff (s : State) : s.idleUnit = none ↔ ∀ v, s.unit v ≠ none := by
  simp [State.idleUnit]

/-- R72: the first of a list's requests that passes a check. -/
theorem find?_request {q front rest : List Dwell} {n : Dwell} {ok : Dwell → Bool} (split : q = front ++ n :: rest)
    (passes : ok n = true) (older : ∀ e ∈ front, ok e = false) : q.find? ok = some n := by
  rw [List.find?_eq_some_iff_append]
  exact ⟨passes, front, rest, split, fun e m => by simp [older e m]⟩

/-- R72: `n` is the request that the rule grants next: the oldest TRAIN request of a lane no unit measures, or, where there
is none, the oldest such HEALTH request. -/
def State.NextRequest (s : State) (front : List Dwell) (n : Dwell) : Prop :=
  n.purpose = .train ∧ (∀ e ∈ front, e.purpose = .train → s.laneBusy e.lane = true)
    ∨ n.purpose = .health ∧ (∀ e ∈ s.dwellQueue, e.purpose = .train → s.laneBusy e.lane = true)
      ∧ ∀ e ∈ front, e.purpose = .health → s.laneBusy e.lane = true

theorem State.NextRequest.grantable {s : State} {front rest : List Dwell} {n : Dwell} (h : s.NextRequest front n)
    (split : s.dwellQueue = front ++ n :: rest) (free : s.laneBusy n.lane = false) : s.grantable = some n := by
  unfold State.grantable
  rcases h with ⟨train, older⟩ | ⟨health, trains, older⟩
  · rw [find?_request split (by simp [train, free]) fun e m => ?_]
    simpa using older e m
  · have no : (s.dwellQueue.find? fun d => d.purpose = .train ∧ s.laneBusy d.lane = false) = none := by
      rw [List.find?_eq_none]
      simpa using trains
    rw [no]
    exact find?_request split (by simp [health, free]) fun e m => by simpa using older e m

/-- The request granted stands nowhere before itself. -/
theorem State.NextRequest.not_mem {s : State} {front : List Dwell} {n : Dwell} (h : s.NextRequest front n)
    (free : s.laneBusy n.lane = false) : n ∉ front := by
  intro m
  rcases h with ⟨train, older⟩ | ⟨health, -, older⟩
  · simp [older n m train] at free
  · simp [older n m health] at free

/-- R72 steps 2 and 3: the unit takes the request, and its dwell begins. -/
def State.granted (s : State) (v : UnitId) (n : Dwell) : State :=
  { s with dwellQueue := s.dwellQueue.erase n, units := s.units.set v (some n) }.beginDwell n

theorem State.units_granted (s : State) (v : UnitId) (n : Dwell) : (s.granted v n).units = s.units.set v (some n) :=
  State.beginDwell_units _ _

theorem State.unit_granted (s : State) (v w : UnitId) (n : Dwell) :
    (s.granted v n).unit w = if w = v then some n else s.unit w := by
  rw [State.unit, State.units_granted, Table.get_set]
  rfl

theorem State.dwellQueue_granted (s : State) (v : UnitId) (n : Dwell) :
    (s.granted v n).dwellQueue = s.dwellQueue.erase n :=
  State.beginDwell_dwellQueue _ _

/-- R73: the lane of a TRAIN dwell is set to its record's current preset. -/
theorem State.lane_beginDwell_train {s : State} {d : Dwell} {rec : TrainRec} (train : d.purpose = .train)
    (training : (s.lane d.lane).training = some rec) : (s.beginDwell d).lane d.lane =
      { s.lane d.lane with preset := some rec.current, applied := some (s.params.presets.get rec.current) } := by
  unfold State.beginDwell
  rw [train]
  dsimp only
  rw [State.lane_modLane_self]
  split
  · rename_i none
    rw [training] at none
    cases none
  · rename_i r some
    rw [training] at some
    cases some
    rfl

theorem State.lane_granted_train {s : State} {v : UnitId} {n : Dwell} {rec : TrainRec} (train : n.purpose = .train)
    (training : (s.lane n.lane).training = some rec) : (s.granted v n).lane n.lane =
      { s.lane n.lane with preset := some rec.current, applied := some (s.params.presets.get rec.current) } :=
  State.lane_beginDwell_train train training

/-- R73: a HEALTH dwell leaves the equalizer as it is. -/
theorem State.lane_granted_health {s : State} {v : UnitId} {n : Dwell} (health : n.purpose = .health) (i : LaneId) :
    (s.granted v n).lane i = s.lane i := by
  unfold State.granted State.beginDwell
  rw [health]
  rfl

/-- R73: a dwell touches no lane but its own. -/
theorem State.lane_granted_of_ne {s : State} {v : UnitId} {n : Dwell} {i : LaneId} (ne : i ≠ n.lane) :
    (s.granted v n).lane i = s.lane i := by
  unfold State.granted State.beginDwell
  split
  · rfl
  · exact (State.lane_modLane ..).trans (if_neg ne)

theorem State.NextRequest.grantOne {s : State} {v : UnitId} {front rest : List Dwell} {n : Dwell}
    (h : s.NextRequest front n) (idle : s.unit v = none) (lowest : ∀ w, w < v → s.unit w ≠ none)
    (split : s.dwellQueue = front ++ n :: rest) (free : s.laneBusy n.lane = false) :
    s.grantOne = some (s.granted v n) := by
  unfold State.grantOne
  rw [State.idleUnit_of idle lowest, h.grantable split free]
  rfl

/-! ### Later grants -/

/-- R72: a grant leaves the dwells in progress and their lanes alone. -/
theorem State.grantUpTo_keeps_dwell (m : Nat) {s : State} {v : UnitId} {n : Dwell} (busy : s.unit v = some n) :
    (State.grantUpTo m s).unit v = some n ∧ (State.grantUpTo m s).lane n.lane = s.lane n.lane := by
  induction m generalizing s with
  | zero => exact ⟨busy, rfl⟩
  | succ m ih =>
    unfold State.grantUpTo
    split
    · exact ⟨busy, rfl⟩
    · rename_i t one
      obtain ⟨u, d, idle, -, free, rfl⟩ := State.grantOne_spec one
      have ne : v ≠ u := by
        rintro rfl
        rw [idle] at busy
        cases busy
      have other : n.lane ≠ d.lane := (s.laneBusy_eq_false_iff d.lane).mp free v n busy
      have still : (s.granted u d).unit v = some n := by rw [State.unit_granted, if_neg ne, busy]
      obtain ⟨unit, lane⟩ := ih still
      exact ⟨unit, lane.trans (State.lane_granted_of_ne other)⟩

/-! ### Where the rule stops -/

/-- R72: the rule has no more to do: no unit is idle, or no request is grantable. -/
theorem State.stops_of_grantOne {s : State} (h : s.grantOne = none) :
    (∀ v, s.unit v ≠ none) ∨ ∀ n ∈ s.dwellQueue, ∃ v w, s.unit v = some w ∧ w.lane = n.lane := by
  cases idle : s.idleUnit with
  | none => exact .inl (s.idleUnit_eq_none_iff.mp idle)
  | some u =>
    refine .inr fun n mem => (s.laneBusy_iff n.lane).mp ?_
    have none : s.grantable = none := by
      cases some : s.grantable with
      | none => rfl
      | some d =>
        unfold State.grantOne at h
        rw [idle, some] at h
        cases h
    unfold State.grantable at none
    split at none
    · cases none
    · rename_i trains
      rw [List.find?_eq_none] at trains none
      cases purpose : n.purpose with
      | train => simpa [purpose] using trains n mem
      | health => simpa [purpose] using none n mem

/-- The units that are idle. -/
def State.idleUnits (s : State) : Finset UnitId := Finset.univ.filter fun u => s.unit u = none

theorem State.idleUnits_granted {s : State} {v : UnitId} (n : Dwell) :
    (s.granted v n).idleUnits = s.idleUnits.erase v := by
  ext w
  simp only [State.idleUnits, State.unit_granted, Finset.mem_filter, Finset.mem_univ, true_and, Finset.mem_erase]
  by_cases e : w = v <;> simp [e]

/-- R72: every grant takes an idle unit, so that as many grants as units are idle reach the end. -/
theorem State.grantOne_grantUpTo (m : Nat) {s : State} (few : s.idleUnits.card ≤ m) :
    (State.grantUpTo m s).grantOne = none := by
  induction m generalizing s with
  | zero =>
    have busy : s.idleUnit = none := by
      rw [State.idleUnit_eq_none_iff]
      intro v idle
      have mem : v ∈ s.idleUnits := by simp [State.idleUnits, idle]
      rw [Finset.card_eq_zero.mp (Nat.le_zero.mp few)] at mem
      cases mem
    unfold State.grantUpTo State.grantOne
    rw [busy]
  | succ m ih =>
    unfold State.grantUpTo
    split
    · assumption
    · rename_i t one
      obtain ⟨u, d, idle, -, -, rfl⟩ := State.grantOne_spec one
      have mem : u ∈ s.idleUnits := by simp [State.idleUnits, idle]
      refine ih (s := s.granted u d) ?_
      rw [State.idleUnits_granted, Finset.card_erase_of_mem mem]
      omega

theorem State.grant_stops (s : State) :
    (∀ v, s.grant.unit v ≠ none) ∨ ∀ n ∈ s.grant.dwellQueue, ∃ v w, s.grant.unit v = some w ∧ w.lane = n.lane :=
  State.stops_of_grantOne (State.grantOne_grantUpTo 4 (Finset.card_le_univ _))

/-- With every unit busy the rule grants nothing. -/
theorem State.grantUpTo_of_busy (m : Nat) {s : State} (busy : ∀ v, s.unit v ≠ none) : State.grantUpTo m s = s := by
  have one : s.grantOne = none := by
    unfold State.grantOne
    rw [s.idleUnit_eq_none_iff.mpr busy]
  cases m with
  | zero => rfl
  | succ m => unfold State.grantUpTo; rw [one]

/-! ### The rule from its first grant on -/

section First

variable {s : State} {v : UnitId} {front rest : List Dwell} {n : Dwell}

theorem State.NextRequest.grant (h : s.NextRequest front n) (idle : s.unit v = none)
    (lowest : ∀ w, w < v → s.unit w ≠ none) (split : s.dwellQueue = front ++ n :: rest)
    (free : s.laneBusy n.lane = false) : s.grant = State.grantUpTo 3 (s.granted v n) := by
  unfold State.grant
  rw [State.grantUpTo, h.grantOne idle lowest split free]

/-- R72: the unit keeps the dwell it was granted, whose lane stands as the grant left it. -/
theorem State.NextRequest.grant_keeps (h : s.NextRequest front n) (idle : s.unit v = none)
    (lowest : ∀ w, w < v → s.unit w ≠ none) (split : s.dwellQueue = front ++ n :: rest)
    (free : s.laneBusy n.lane = false) :
    s.grant.unit v = some n ∧ s.grant.lane n.lane = (s.granted v n).lane n.lane := by
  rw [h.grant idle lowest split free]
  exact State.grantUpTo_keeps_dwell 3 ((s.unit_granted v v n).trans (if_pos rfl))

/-- R72: with one unit idle the first grant is the only one. -/
theorem State.NextRequest.grant_alone (h : s.NextRequest front n) (idle : s.unit v = none)
    (others : ∀ w, w ≠ v → s.unit w ≠ none) (split : s.dwellQueue = front ++ n :: rest)
    (free : s.laneBusy n.lane = false) :
    s.grant.units = s.units.set v (some n) ∧ s.grant.dwellQueue = front ++ rest := by
  have busy : ∀ w, (s.granted v n).unit w ≠ none := by
    intro w
    rw [State.unit_granted]
    split
    · simp
    · exact others w ‹_›
  rw [h.grant idle (fun w lt => others w (ne_of_lt lt)) split free, State.grantUpTo_of_busy 3 busy]
  refine ⟨s.units_granted v n, ?_⟩
  rw [State.dwellQueue_granted, split, List.erase_append_right _ (h.not_mem free), List.erase_cons_head]

/-- R72, R73: what the grant rule makes of the request it grants first. -/
theorem State.NextRequest.grant_serves (h : s.NextRequest front n) (idle : s.unit v = none)
    (lowest : ∀ w, w < v → s.unit w ≠ none) (split : s.dwellQueue = front ++ n :: rest)
    (free : s.laneBusy n.lane = false) :
    s.grant.unit v = some n
      ∧ (n.purpose = .train → ∀ rec, (s.lane n.lane).training = some rec →
          (s.grant.lane n.lane).preset = some rec.current
          ∧ (s.grant.lane n.lane).applied = some (s.params.presets.get rec.current))
      ∧ (n.purpose = .health → s.grant.lane n.lane = s.lane n.lane)
      ∧ ((∀ w, w ≠ v → s.unit w ≠ none) →
        s.grant.units = s.units.set v (some n) ∧ s.grant.dwellQueue = front ++ rest) := by
  obtain ⟨unit, lane⟩ := h.grant_keeps idle lowest split free
  rw [lane]
  refine ⟨unit, fun train rec training => ?_, fun health => State.lane_granted_health health _,
    fun others => h.grant_alone idle others split free⟩
  rw [State.lane_granted_train train training]
  exact ⟨rfl, rfl⟩

end First

end Sys2Proof.Machine
end

section
/-! SUPPORT. Sys2Proof/Proofs/HealthResult.lean: a dwell result frees its unit; a stale one lets the grant rule run, and a
current HEALTH result scores or fails its lane (R72 to R76, R100, R104). -/

namespace Sys2Proof.Machine

open Sys2Proof

/-! ### The event (R75) -/

/-- R72: an event that ends with a grant due and nothing else. -/
theorem State.finish_of_grantDue {s : State} (clear : s.Unmarked) : s.grantDue.finish = s.grant := by
  rw [State.finish_of_unserved _ (by simp [State.grantDue, clear]) (by simp [State.grantDue, clear])
    (by simp [State.grantDue, clear])]
  have marked : s.grantDue.grant = { s.grant with scratch := { s.scratch with grant := true } } := s.grant_scratch _
  have unmarked : s.grant = { s.grant with scratch := {} } := by
    rw [← s.grant_scratch, s.clear_of_unmarked clear]
  refine (congrArg State.unmark ((if_pos rfl).trans marked)).trans ?_
  rw [unmarked]
  rfl

/-- R75, R76: a stale result frees its unit, and the grant rule runs. -/
theorem exec_stale {s : State} {u : UnitId} {d : Dwell} (busy : s.unit u = some d) (stale : d.run ≠ (s.lane d.lane).run)
    (clear : s.Unmarked) (o : DwellOutcome) :
    exec (.dwellResult u o) s = .next (State.grant { s with units := s.units.set u none }) := by
  have ended : s.dwellEnds u d o = State.grant { s with units := s.units.set u none } := by
    refine (congrArg State.finish (if_neg stale)).trans ?_
    exact State.finish_of_grantDue (s := { s with units := s.units.set u none }) clear
  change Host.Outcome.next (match s.unit u with | none => s | some d => s.dwellEnds u d o) = _
  rw [busy]
  exact congrArg _ ended

/-- R75: a current HEALTH result goes to the lane it measured. -/
theorem exec_health {s : State} {u : UnitId} {d : Dwell} (busy : s.unit u = some d) (health : d.purpose = .health)
    (run : d.run = (s.lane d.lane).run) (o : DwellOutcome) :
    exec (.dwellResult u o) s = .next ((s.freed u).healthResult d.lane o).finish := by
  have result : (s.freed u).deliverResult d o = (s.freed u).healthResult d.lane o := by
    rw [State.deliverResult, health]
  have ended : s.dwellEnds u d o = ((s.freed u).healthResult d.lane o).finish := by
    rw [← result]
    exact congrArg State.finish (if_pos run)
  change Host.Outcome.next (match s.unit u with | none => s | some d => s.dwellEnds u d o) = _
  rw [busy]
  exact congrArg _ ended

/-! ### The score (R100) -/

theorem State.modLane_modLane (s : State) (i : LaneId) (f g : Lane → Lane) :
    (s.modLane i f).modLane i g = s.modLane i fun l => g (f l) := by
  have lanes : (s.lanes.set i (f (s.lane i))).set i (g (f (s.lane i))) = s.lanes.set i (g (f (s.lane i))) := by
    apply Table.ext_get
    intro j
    simp only [Table.get_set]
    split <;> rfl
  have own : (s.modLane i f).lane i = f (s.lane i) := s.lane_modLane_self i f
  unfold State.modLane at own ⊢
  rw [own]
  dsimp only
  rw [lanes]

/-- R100: what a HEALTH result does to an ACTIVE lane. -/
theorem State.healthResult_of {s : State} {i : LaneId} (active : (s.lane i).state = .active) (o : DwellOutcome) :
    s.healthResult i o =
      if strikes s.params o then
        if s.params.strikeLimit ≤ (s.lane i).strikes + 1 then
          (s.modLane i fun l => { l with fom := some (figureOf o) }).declareFailing i .strikes (figureOf o)
        else s.modLane i fun l => { l with fom := some (figureOf o), strikes := l.strikes + 1 }
      else s.modLane i fun l => { l with fom := some (figureOf o), strikes := 0 } := by
  unfold State.healthResult
  rw [if_neg (not_not.mpr active)]
  dsimp only
  rw [State.lane_modLane_self, State.modLane_modLane, State.modLane_modLane]
  rfl

/-- R74, R100: an outcome that strikes, with its figure. -/
theorem strikes_of_below {p : Params} {o : DwellOutcome} {f : Byte}
    (low : (o = .fom f ∧ f.toNat < p.hold) ∨ (o = .noLock ∧ f = 0)) : strikes p o = true ∧ figureOf o = f := by
  rcases low with ⟨rfl, lt⟩ | ⟨rfl, rfl⟩
  · exact ⟨decide_eq_true lt, rfl⟩
  · exact ⟨rfl, rfl⟩

theorem not_strikes_of_high {p : Params} {f : Byte} (high : p.hold ≤ f.toNat) : ¬ strikes p (.fom f) = true := by
  simpa [strikes] using high

/-! ### The strike limit (R100, R104) -/

/-- `t` has the units and the log of `s`, and no dwell request where `s` has none. -/
structure State.BenchKept (s t : State) : Prop where
  units : t.units = s.units
  ring : t.ring = s.ring
  empty : s.dwellQueue = [] → t.dwellQueue = []

theorem State.BenchKept.refl (s : State) : s.BenchKept s := ⟨rfl, rfl, id⟩

theorem State.BenchKept.trans {s t u : State} (h : s.BenchKept t) (k : t.BenchKept u) : s.BenchKept u :=
  ⟨k.units.trans h.units, k.ring.trans h.ring, fun e => k.empty (h.empty e)⟩

theorem State.benchKept_send (s : State) (m : Msg) : s.BenchKept (s.send m) :=
  ⟨s.send_units m, s.send_ring m, fun e => (s.send_dwellQueue m).trans e⟩

theorem State.benchKept_modPosition (s : State) (c : SlotId) (n : Nat) (f : Position → Position) :
    s.BenchKept (s.modPosition c n f) :=
  ⟨by simp, by simp, fun e => by simpa using e⟩

theorem State.benchKept_takeLane (s : State) (i : LaneId) (st : LaneState) (pl : Place) :
    s.BenchKept (s.takeLane i st pl) :=
  ⟨rfl, rfl, fun e => by
    have queue : (s.takeLane i st pl).dwellQueue = s.dwellQueue.filter fun d => decide (d.lane ≠ i) :=
      s.dwellQueue_moveLane i st
    rw [queue, e]
    rfl⟩

theorem State.benchKept_markRepairing (s : State) (c : SlotId) : s.BenchKept (s.markRepairing c) := by
  unfold State.markRepairing
  split
  · exact .refl s
  · split
    · exact ⟨by simp, by simp, fun e => by simpa using e⟩
    · exact .refl s

/-- R114, R115: a pick with an attempt left asks for no dwell and logs nothing. -/
theorem State.benchKept_pick {s : State} {c : SlotId} {n : Nat} {x : Circuit} {q : Position} (hx : s.circuit c = some x)
    (hq : x.positions[n]? = some q) (live : x.live = true) (left : q.attempts < 3) : s.BenchKept (s.pick c n) := by
  rw [State.pick_of hx hq live left]
  split
  · rw [State.propose_eq]
    exact ((s.benchKept_takeLane _ _ _).trans (State.benchKept_modPosition _ _ _ _)).trans (State.benchKept_send _ _)
  · rw [State.seek_eq]
    obtain ⟨units, ring, empty⟩ := s.benchKept_modPosition c n (Position.seeks s.params.repairPatience)
    exact ⟨units, ring, empty⟩

section Limit

variable {s : State} {i : LaneId} {pl : Place} {x : Circuit} {p : Position}

/-- R104, R110, R112: what `t` shows where, from `s`, the lane `i` of a circuit in the UP phase has been declared FAILING,
whatever repair its position was in. -/
structure State.FailsLive (s t : State) (i : LaneId) (pl : Place) (p : Position) (r : FailReason) (f : Byte) : Prop where
  bench : (s.declared i r f).BenchKept t
  marks : t.scratch = s.scratch
  lane : t.lane i = (s.lane i).declared r
  circuit : ∃ y, t.circuit pl.slot = some y ∧ (p.dropped = false → p.repair = .none → y.state = .repairing)

/-- R110: a dropped position begins no repair. -/
theorem State.startRepair_of_dropped {c : SlotId} {n : Nat} (hx : s.circuit c = some x) (hq : x.positions[n]? = some p)
    (dropped : p.dropped = true) : s.startRepair c n = s := by
  simp [State.startRepair, State.position_eq hx, hq, dropped]

/-- A position that is dropped or in repair starts none. -/
theorem State.Fills.failsLive_still (h : s.Fills i pl x p) (active : (s.lane i).state = .active)
    {r : FailReason} {f : Byte} (still : s.declareFailing i r f = s.declared i r f)
    (no : ¬ (p.dropped = false ∧ p.repair = .none)) : s.FailsLive (s.declareFailing i r f) i pl p r f := by
  rw [still]
  exact ⟨.refl _, rfl, (State.lane_declared active r f i).trans (if_pos rfl), x, (h.declared r f).circuit,
    fun held idle => absurd ⟨held, idle⟩ no⟩

theorem State.Fills.failsLive (h : s.Fills i pl x p) (active : (s.lane i).state = .active)
    (up : x.state = .up ∨ x.state = .repairing) (fresh : p.repair = .none → p.attempts = 0) (out : i ∉ s.pool)
    (v : s.scratch.overflow = false) (room : s.Room 1) (r : FailReason) (f : Byte) :
    s.FailsLive (s.declareFailing i r f) i pl p r f := by
  have form := h.declareFailing_upPhase up r f
  have fails := h.declared r f
  cases role : x.role with
  | answer =>
    rw [role] at form
    dsimp only at form
    by_cases idle : p.repair = .none
    · rw [if_pos idle] at form
      obtain ⟨shown, -⟩ := h.failsUp_answer active up role idle v room r f
      refine ⟨?_, shown.marks, shown.lane, _, shown.circuit, fun _ _ => shown.repairing⟩
      rw [form]
      exact (State.benchKept_send _ _).trans (State.benchKept_markRepairing _ _)
    · rw [if_neg idle] at form
      exact h.failsLive_still active form fun no => idle no.2
  | origin =>
    rw [role] at form
    dsimp only at form
    by_cases idle : p.repair = .none
    · cases held : p.dropped with
      | true =>
        rw [State.startRepair_of_dropped fails.circuit fails.position held] at form
        exact h.failsLive_still active form (by simp [held])
      | false =>
        have few : p.attempts < 3 := by rw [fresh idle]; decide
        obtain ⟨⟨y, shown⟩, -⟩ := h.failsUp_origin active up role idle held few out v room r f
        refine ⟨?_, shown.marks, shown.lane, y, shown.circuit, fun _ _ => shown.repairing⟩
        rw [form, State.startRepair_of fails.circuit fails.position idle held]
        have live : x.repairing.live = true := by simp [Circuit.live, Circuit.state_repairing up]
        exact (State.benchKept_markRepairing _ _).trans
          (State.benchKept_pick (State.circuit_markRepairing fails.circuit) fails.position live few)
    · rw [State.startRepair_of_busy fails.circuit fails.position idle] at form
      exact h.failsLive_still active form fun no => idle no.2

/-- R104: the declaration asks for no dwell. -/
theorem State.dwellQueue_declared (empty : s.dwellQueue = []) (r : FailReason) (f : Byte) :
    (s.declared i r f).dwellQueue = [] := by
  have queue : (s.declared i r f).dwellQueue = s.dwellQueue.filter fun d => decide (d.lane ≠ i) :=
    State.dwellQueue_moveLane _ i .failing
  rw [queue, empty]
  rfl

/-- R72: no request is queued, so that an event that marked nothing but a grant ends as it stands. -/
theorem State.finish_of_no_request (marks : s.scratch = { grant := true }) (empty : s.dwellQueue = []) :
    s.finish = s.unmark := by
  rw [s.finish_of_unserved (by rw [marks]) (by rw [marks]) (by rw [marks]), s.grant_of_empty empty, ite_self]

end Limit

/-! ### The statement's clauses -/

section Clauses

variable {s : State} {u : UnitId} {d : Dwell} {o : DwellOutcome}

/-- R75, R100: a current HEALTH result that scores an ACTIVE lane as `g` says, while no request is queued. -/
theorem exec_health_scored (busy : s.unit u = some d) (health : d.purpose = .health) (run : d.run = (s.lane d.lane).run)
    (clear : s.Unmarked) (empty : s.dwellQueue = []) {g : Lane → Lane}
    (scored : (s.freed u).healthResult d.lane o = (s.freed u).modLane d.lane g) :
    exec (.dwellResult u o) s = .next (State.modLane { s with units := s.units.set u none } d.lane g) := by
  rw [exec_health busy health run o, scored]
  refine congrArg Host.Outcome.next ?_
  refine (State.finish_of_grantDue (s := State.modLane { s with units := s.units.set u none } d.lane g) clear).trans ?_
  exact State.grant_of_empty _ empty

/-- R75, R100: the state in which a HEALTH result is judged: its unit is free, a grant is due, and `fom` holds the
figure. -/
def State.judged (s : State) (u : UnitId) (i : LaneId) (f : Byte) : State :=
  (s.freed u).modLane i fun l => { l with fom := some f }

/-- R100, R104: the figure that reaches the strike limit. -/
theorem exec_health_limit {f : Byte} {pl : Place} {x : Circuit} {p : Position} (busy : s.unit u = some d)
    (health : d.purpose = .health) (run : d.run = (s.lane d.lane).run) (clear : s.Unmarked) (empty : s.dwellQueue = [])
    (active : (s.lane d.lane).state = .active) (low : strikes s.params o = true ∧ figureOf o = f)
    (limit : s.params.strikeLimit ≤ (s.lane d.lane).strikes + 1) (fills : s.Fills d.lane pl x p)
    (up : x.state = .up ∨ x.state = .repairing) (fresh : p.repair = .none → p.attempts = 0) (out : d.lane ∉ s.pool)
    (room : s.Room 1) :
    ∃ t, exec (.dwellResult u o) s = .next t ∧ t.unit u = none
      ∧ t.lane d.lane = ({ s.lane d.lane with fom := some f } : Lane).declared .strikes
      ∧ (∃ y, t.circuit pl.slot = some y ∧ (p.dropped = false → p.repair = .none → y.state = .repairing))
      ∧ t.ring.getLast?.map (fun e => (e.kind, e.lane, e.tag, e.detail))
          = some (.laneFailing, some d.lane, some x.tag, detail2 (failByte .strikes) f) := by
  have result : (s.freed u).healthResult d.lane o
      = (s.judged u d.lane f).declareFailing d.lane .strikes f := by
    obtain ⟨strike, figure⟩ := low
    have strike : strikes (s.freed u).params o = true := strike
    have limit : (s.freed u).params.strikeLimit ≤ ((s.freed u).lane d.lane).strikes + 1 := limit
    rw [State.healthResult_of (s := s.freed u) active, if_pos strike, if_pos limit, figure]
    rfl
  have own : (s.judged u d.lane f).lane d.lane = { s.lane d.lane with fom := some f } :=
    (s.freed u).lane_modLane_self d.lane _
  have marks : (s.judged u d.lane f).scratch = { grant := true } := by
    change { s.scratch with grant := true } = _
    rw [clear]
  have fills : (s.judged u d.lane f).Fills d.lane pl x p := fills.congr (by rw [own]) rfl
  have active : ((s.judged u d.lane f).lane d.lane).state = .active := by
    rw [own]
    exact active
  have out : d.lane ∉ (s.judged u d.lane f).pool := out
  have room : (s.judged u d.lane f).Room 1 := room
  have empty : (s.judged u d.lane f).dwellQueue = [] := empty
  have freed : (s.judged u d.lane f).unit u = none := s.units.get_set_self u none
  refine ⟨_, exec_health busy health run o, ?_⟩
  rw [result]
  generalize s.judged u d.lane f = r at *
  obtain ⟨⟨units, ring, queue⟩, marks', lane, circuit⟩ :=
    fills.failsLive active up fresh out (by rw [marks]) room .strikes f
  rw [State.finish_of_no_request (marks'.trans marks) (queue (State.dwellQueue_declared empty .strikes f))]
  refine ⟨?_, ?_, circuit, ?_⟩
  · exact (congrArg (Table.get · u) units).trans freed
  · rw [State.lane_unmark, lane, own]
  · refine (congrArg (fun l : List LogEntry => l.getLast?.map _) ring).trans ?_
    exact fills.ring_declared .strikes f

end Clauses

/-- Settles O53: a stale result leaves the grant rule alone; a current one is scored, or reaches the strike limit. -/
theorem healthResultTaken : Obligations.HealthResultTaken := by
  rintro s freed u d o busy rfl clear
  refine ⟨fun stale empty => ?_, fun stale => ?_,
    fun empty health run active => ⟨fun f figure high => ?_, fun f low => ?_⟩⟩
  · rw [exec_stale busy stale clear]
    exact congrArg Host.Outcome.next (State.grant_of_empty _ empty)
  · refine ⟨_, exec_stale busy stale clear o, State.grant_stops _, ?_⟩
    intro v front rest n held idle lowest split measured unmeasured first
    have busy_iff (i) : held i ↔ State.laneBusy { s with units := s.units.set u none } i = true :=
      (measured i).trans (State.laneBusy_iff _ i).symm
    simp only [busy_iff] at first unmeasured
    exact State.NextRequest.grant_serves first idle lowest split (Bool.not_eq_true _ ▸ unmeasured)
  · have scored : (s.freed u).healthResult d.lane o
        = (s.freed u).modLane d.lane fun l => { l with fom := some f, strikes := 0 } := by
      have calm : ¬ strikes (s.freed u).params (.fom f) = true := not_strikes_of_high (p := s.params) high
      rw [State.healthResult_of (s := s.freed u) active, figure, if_neg calm]
      rfl
    exact exec_health_scored busy health run clear empty scored
  · have low := strikes_of_below low
    refine ⟨fun below => ?_, fun pl x p limit place circuit up position fresh out room => ?_⟩
    · have scored : (s.freed u).healthResult d.lane o
          = (s.freed u).modLane d.lane fun l => { l with fom := some f, strikes := l.strikes + 1 } := by
        have strike : strikes (s.freed u).params o = true := low.1
        have below : ¬ (s.freed u).params.strikeLimit ≤ ((s.freed u).lane d.lane).strikes + 1 := Nat.not_le.mpr below
        rw [State.healthResult_of (s := s.freed u) active, if_pos strike, if_neg below, low.2]
      exact exec_health_scored busy health run clear empty scored
    · exact exec_health_limit busy health run clear empty active low limit ⟨place, circuit, position⟩ up fresh out room

end Sys2Proof.Machine
end

section
/-! SUPPORT. Sys2Proof/Proofs/TrainResult.lean: a current TRAIN result in the search, at a CONFIRM that starts the next
attempt, and at the CONFIRM that fails the run (R83, R85 to R87, R89, R90). -/

namespace Sys2Proof.Machine

open Sys2Proof

/-! ### The search (R85 to R87) -/

/-- R85: what a figure makes of a record's best preset, its figure and the misses. -/
abbrev TrainRec.Scores (r : TrainRec) (f : Byte) (best : Option PresetId) (bestFom : Byte) (misses : Nat) : Prop :=
  r.bestFom = none ∧ best = some r.current ∧ bestFom = f ∧ misses = r.misses
    ∨ ∃ v, r.bestFom = some v
      ∧ (v.toNat < f.toNat ∧ best = some r.current ∧ bestFom = f ∧ misses = 0
        ∨ f.toNat ≤ v.toNat ∧ best = r.best ∧ bestFom = v ∧ misses = r.misses + 1)

/-- A record with its best preset, that preset's figure and its misses. -/
def TrainRec.scoredAs (r : TrainRec) (best : Option PresetId) (bestFom : Byte) (misses : Nat) : TrainRec :=
  { r with best := best, bestFom := some bestFom, misses := misses }

theorem TrainRec.Scores.score {r : TrainRec} {f : Byte} {best : Option PresetId} {bestFom : Byte} {misses : Nat}
    (h : r.Scores f best bestFom misses) :
    r.score f = r.scoredAs best bestFom misses := by
  unfold TrainRec.score TrainRec.scoredAs
  rcases h with ⟨first, rfl, rfl, rfl⟩ | ⟨v, later, ⟨greater, rfl, rfl, rfl⟩ | ⟨miss, rfl, rfl, rfl⟩⟩
  · rw [first]
  · rw [later]
    exact if_pos greater
  · rw [later]
    refine (if_neg (Nat.not_lt.mpr miss)).trans ?_
    rw [← later]

/-- R86: the next preset up. -/
theorem TrainRec.afterAscend_up {r : TrainRec} (few : r.misses ≠ r.lookBeyond) (below : r.current ≠ 11) :
    r.afterAscend = { r with current := r.current + 1 } :=
  if_neg (not_or.mpr ⟨few, below⟩)

/-- R86: ASCEND gives way to DESCEND where the start preset is the best and another lies below it. -/
theorem TrainRec.afterAscend_turns {r : TrainRec} (ends : r.misses = r.lookBeyond ∨ r.current = 11)
    (best : r.best = some r.start) (above : r.start ≠ 0) :
    r.afterAscend = { r with phase := .descend, misses := 0, current := r.start - 1 } :=
  (if_pos ends).trans (if_pos ⟨best, above⟩)

/-- R86: ASCEND gives way to CONFIRM otherwise. -/
theorem TrainRec.afterAscend_confirms {r : TrainRec} (ends : r.misses = r.lookBeyond ∨ r.current = 11) {m : PresetId}
    (best : r.best = some m) (other : m ≠ r.start ∨ r.start = 0) :
    r.afterAscend.phase = .confirm ∧ r.afterAscend.current = m := by
  have stays : ¬ (r.best = some r.start ∧ r.start ≠ 0) := by
    rintro ⟨start, above⟩
    rw [best] at start
    exact other.elim (· (Option.some.inj start)) above
  rw [TrainRec.afterAscend, if_pos ends, if_neg stays]
  exact ⟨rfl, by simp [TrainRec.toConfirm, best]⟩

/-- R87: the next preset down. -/
theorem TrainRec.afterDescend_down {r : TrainRec} (few : r.misses ≠ r.lookBeyond) (above : r.current ≠ 0) :
    r.afterDescend = { r with current := r.current - 1 } :=
  if_neg (not_or.mpr ⟨few, above⟩)

/-- R87: DESCEND gives way to CONFIRM. -/
theorem TrainRec.afterDescend_confirms {r : TrainRec} (ends : r.misses = r.lookBeyond ∨ r.current = 0) {m : PresetId}
    (best : r.best = some m) : r.afterDescend.phase = .confirm ∧ r.afterDescend.current = m := by
  rw [TrainRec.afterDescend, if_pos ends]
  exact ⟨rfl, by simp [TrainRec.toConfirm, best]⟩

/-- `n` is a record of the same attempt as `r`, with the same best so far. -/
abbrev TrainRec.SameAttempt (r n : TrainRec) : Prop :=
  n.attempt = r.attempt ∧ n.start = r.start ∧ n.lookBeyond = r.lookBeyond ∧ n.best = r.best ∧ n.bestFom = r.bestFom

theorem TrainRec.sameAttempt_afterAscend (r : TrainRec) : r.SameAttempt r.afterAscend := by
  unfold TrainRec.afterAscend
  split
  · split <;> exact ⟨rfl, rfl, rfl, rfl, rfl⟩
  · exact ⟨rfl, rfl, rfl, rfl, rfl⟩

theorem TrainRec.sameAttempt_afterDescend (r : TrainRec) : r.SameAttempt r.afterDescend := by
  unfold TrainRec.afterDescend
  split <;> exact ⟨rfl, rfl, rfl, rfl, rfl⟩

theorem TrainRec.search_ascend {r : TrainRec} (h : r.phase = .ascend) (f : Byte) :
    r.search f = (r.score f).afterAscend := by
  rw [TrainRec.search, h]

theorem TrainRec.search_descend {r : TrainRec} (h : r.phase = .descend) (f : Byte) :
    r.search f = (r.score f).afterDescend := by
  rw [TrainRec.search, h]

theorem TrainRec.sameAttempt_search {r : TrainRec} (searching : r.phase ≠ .confirm) (f : Byte) :
    (r.score f).SameAttempt (r.search f) := by
  cases phase : r.phase with
  | ascend =>
    rw [TrainRec.search_ascend phase]
    exact TrainRec.sameAttempt_afterAscend _
  | descend =>
    rw [TrainRec.search_descend phase]
    exact TrainRec.sameAttempt_afterDescend _
  | confirm => exact absurd phase searching

theorem PresetId.val_succ {m : PresetId} (h : m ≠ 11) : (m + 1).val = m.val + 1 :=
  Fin.val_add_one_of_lt (Fin.lt_last_iff_ne_last.mpr h)

theorem PresetId.val_pred {m : PresetId} (h : m ≠ 0) : (m - 1).val + 1 = m.val := by
  rw [Fin.val_sub_one_of_ne_zero h]
  have := Fin.pos_iff_ne_zero.mpr h
  omega

/-! ### The dwell that is asked for or begun (R71, R72) -/

/-- R72: a grant loses no request: each still waits, or a unit has it. -/
theorem State.grantUpTo_keeps_request (m : Nat) {s : State} {n : Dwell}
    (h : n ∈ s.dwellQueue ∨ ∃ v, s.unit v = some n) :
    n ∈ (State.grantUpTo m s).dwellQueue ∨ ∃ v, (State.grantUpTo m s).unit v = some n := by
  induction m generalizing s with
  | zero => exact h
  | succ m ih =>
    unfold State.grantUpTo
    split
    · exact h
    · rename_i t one
      obtain ⟨u, d, idle, -, -, rfl⟩ := State.grantOne_spec one
      refine ih (s := s.granted u d) ?_
      rw [State.dwellQueue_granted]
      simp only [State.unit_granted]
      rcases h with waits | ⟨v, has⟩
      · by_cases e : n = d
        · exact .inr ⟨u, by rw [if_pos rfl, e]⟩
        · exact .inl ((List.mem_erase_of_ne e).mpr waits)
      · have ne : v ≠ u := by
          rintro rfl
          rw [idle] at has
          cases has
        exact .inr ⟨v, by rw [if_neg ne, has]⟩

/-- What an event shows whose end has grants alone to make. -/
theorem State.finish_granting_shows {s : State} (marks : s.scratch = { grant := true }) :
    s.finish.placed = s.placed ∧ s.finish.ring = s.ring ∧ s.finish.seeking = s.seeking
      ∧ ∀ i, ∃ p a, s.finish.lane i = { s.lane i with preset := p, applied := a } := by
  obtain ⟨ls, q, us, e, lane⟩ := s.ite_grant_eq
  rw [s.finish_of_unserved (by rw [marks]) (by rw [marks]) (by rw [marks]), e]
  refine ⟨rfl, rfl, rfl, fun i => ?_⟩
  obtain ⟨p, a, own, -⟩ := lane i
  exact ⟨p, a, own⟩

/-- R71: the request of a lane that has none queued. -/
theorem State.requestDwell_of_unqueued {s : State} {i : LaneId} (unqueued : s.dwellQueued i = false) (p : Purpose) :
    s.requestDwell i p = State.grantDue { s with dwellQueue := s.dwellQueue ++ [⟨i, p, (s.lane i).run⟩] } :=
  if_neg (by simp [unqueued])

/-- R71, R72: the end of an event that asks for a TRAIN dwell: the dwell waits or has begun, and the lane stands as it did but
for its equalizer. -/
theorem State.finish_requestDwell_shows {s : State} {i : LaneId} (marks : s.scratch = { grant := true })
    (unqueued : s.dwellQueued i = false) :
    ((s.requestDwell i .train).finish.dwellQueued i = true
        ∨ ∃ v, (s.requestDwell i .train).finish.unit v = some ⟨i, .train, (s.lane i).run⟩)
      ∧ ∃ p a, (s.requestDwell i .train).finish.lane i = { s.lane i with preset := p, applied := a } := by
  rw [State.requestDwell_of_unqueued unqueued]
  have marks : (State.grantDue { s with dwellQueue := s.dwellQueue ++ [⟨i, .train, (s.lane i).run⟩] }).scratch
      = { grant := true } := by
    change { s.scratch with grant := true } = _
    rw [marks]
  refine ⟨?_, (State.finish_granting_shows marks).2.2.2 i⟩
  rw [State.finish_of_unserved _ (by rw [marks]) (by rw [marks]) (by rw [marks]), if_pos (by rw [marks])]
  refine (State.grantUpTo_keeps_request 4 (.inl (List.mem_append_right _ List.mem_cons_self))).imp_left fun waits => ?_
  exact List.any_eq_true.mpr ⟨_, waits, decide_eq_true rfl⟩

/-! ### The event (R75) -/

section Delivered

variable {s : State} {u : UnitId} {d : Dwell} {rec : TrainRec}

/-- R75: a current result goes to the block that asked for it. -/
theorem exec_current (busy : s.unit u = some d) (run : d.run = (s.lane d.lane).run) (o : DwellOutcome) :
    exec (.dwellResult u o) s = .next ((s.freed u).deliverResult d o).finish := by
  have ended : s.dwellEnds u d o = ((s.freed u).deliverResult d o).finish := congrArg State.finish (if_pos run)
  change Host.Outcome.next (match s.unit u with | none => s | some d => s.dwellEnds u d o) = _
  rw [busy]
  exact congrArg _ ended

theorem exec_train (busy : s.unit u = some d) (train : d.purpose = .train) (run : d.run = (s.lane d.lane).run)
    (o : DwellOutcome) :
    exec (.dwellResult u o) s = .next ((s.freed u).trainResult d.lane (figureOf o)).finish := by
  rw [exec_current busy run, State.deliverResult, train]

theorem State.scratch_freed (clear : s.Unmarked) (u : UnitId) : (s.freed u).scratch = { grant := true } := by
  change { s.scratch with grant := true } = _
  rw [clear]

/-- R84: the lane's training record is `r`. -/
def State.recorded (s : State) (i : LaneId) (r : TrainRec) : State := s.modLane i fun l => { l with training := some r }

theorem State.lane_recorded (s : State) (i : LaneId) (r : TrainRec) :
    (s.recorded i r).lane i = { s.lane i with training := some r } :=
  s.lane_modLane_self i fun l => { l with training := some r }

/-- R85: in ASCEND and DESCEND a result moves the search on, and the next dwell is asked for. -/
theorem State.trainResult_search {i : LaneId} (training : (s.lane i).training = some rec) (searching : rec.phase ≠ .confirm)
    (f : Byte) : s.trainResult i f = (s.recorded i (rec.search f)).requestDwell i .train := by
  rw [State.trainResult, training]
  dsimp only
  split
  · rename_i confirm
    exact absurd confirm searching
  · rfl

/-- R89, R90: a CONFIRM below Q starts the next attempt, or fails the run. -/
theorem State.trainResult_below {i : LaneId} (training : (s.lane i).training = some rec) (confirm : rec.phase = .confirm)
    {f : Byte} (below : f.toNat < s.params.qualify) : s.trainResult i f =
      if rec.attempt < s.params.trainAttempts then s.restartAttempt i (rec.attempt + 1) else s.trainingFails i f := by
  rw [State.trainResult, training]
  dsimp only
  rw [confirm]
  exact if_neg (Nat.not_le.mpr below)

/-- R83: an attempt after the first starts at the parameter's start preset. -/
theorem startPreset_of_later (p : Params) (l : Lane) {n : Nat} (later : n ≠ 1) : startPreset p l n = p.startPreset :=
  if_neg fun h => later h.1

/-- R76, R89: the lane's run number has advanced, and no request of it is queued. -/
def State.rerun (s : State) (i : LaneId) : State := (s.modLane i fun l => { l with run := l.run + 1 }).cancelDwell i

theorem State.lane_rerun (s : State) (i : LaneId) : (s.rerun i).lane i = { s.lane i with run := (s.lane i).run + 1 } :=
  s.lane_modLane_self i fun l => { l with run := l.run + 1 }

theorem State.dwellQueued_rerun (s : State) (i : LaneId) : (s.rerun i).dwellQueued i = false := by
  simp [State.rerun, State.dwellQueued, State.cancelDwell]

theorem State.restartAttempt_eq (s : State) (i : LaneId) (n : Nat) :
    s.restartAttempt i n = ((s.rerun i).recorded i (freshRecord s.params (s.lane i) n)).requestDwell i .train := by
  have fresh : freshRecord s.params ((s.rerun i).lane i) n = freshRecord s.params (s.lane i) n := by
    rw [State.lane_rerun]
    rfl
  rw [← fresh]
  rfl

/-- R84, R89: what the next attempt leaves of the lane. -/
theorem State.finish_restartAttempt {i : LaneId} (marks : s.scratch = { grant := true }) (n : Nat) :
    ∃ p a, (s.restartAttempt i n).finish.lane i = { s.lane i with
      run := (s.lane i).run + 1, training := some (freshRecord s.params (s.lane i) n), preset := p, applied := a } := by
  obtain ⟨-, p, a, shown⟩ := State.finish_requestDwell_shows (i := i)
    (s := (s.rerun i).recorded i (freshRecord s.params (s.lane i) n)) marks (s.dwellQueued_rerun i)
  rw [State.restartAttempt_eq]
  exact ⟨p, a, shown.trans (by rw [State.lane_recorded, State.lane_rerun])⟩

end Delivered

/-! ### The run that fails (R36, R90) -/

/-- R11, R169: a fence for a training failure leaves a LANE_TRAIN_FAIL entry with the figure. -/
theorem State.logged_setLocalFence_training (s : State) (i : LaneId) (t : Option Tag) (f : Byte) :
    ∃ e ∈ (s.setLocalFence i t (.training f)).ring, e.kind = .laneTrainFail ∧ e.lane = some i ∧ e.tag = t
      ∧ e.detail = f.zeroExtend 16 := by
  unfold State.setLocalFence State.logFence
  dsimp only
  generalize ((s.modLane i (Lane.fenceLocally s.params)).noteFenceChange i).send
    (.fence (byteOf i.val) (FenceCause.training f).reason) = u
  have last := u.getLast?_log .laneTrainFail (some i) t (f.zeroExtend 16)
  split
  · exact ⟨_, State.mem_ring_log last _ _ _ _, rfl, rfl, rfl, rfl⟩
  · exact ⟨_, List.mem_of_getLast? last, rfl, rfl, rfl, rfl⟩

/-- R36, R90: TRAINED(FAIL) has gone out for the position `n` of the circuit `x`, and the local fence stands. -/
def State.trainFenced (s : State) (i : LaneId) (x : Circuit) (n : Nat) (f : Byte) : State :=
  (s.send (.trained x.tag (byteOf n) false)).setLocalFence i (some x.tag) (.training f)

section Fails

variable {s : State} {i : LaneId} {pl : Place} {x : Circuit} {p : Position}

theorem State.lane_trainFenced (s : State) (i j : LaneId) (x : Circuit) (n : Nat) (f : Byte) :
    (s.trainFenced i x n f).lane j = if j = i then (s.lane i).fenceLocally s.params else s.lane j := by
  rw [State.trainFenced, State.lane_setLocalFence]
  simp

theorem State.Fills.trainFenced (h : s.Fills i pl x p) (n : Nat) (f : Byte) : (s.trainFenced i x n f).Fills i pl x p :=
  State.Fills.setLocalFence (h.congr (by simp) (by simp)) (some x.tag) (.training f)

theorem State.Fills.trainingFails (h : s.Fills i pl x p) (f : Byte) :
    s.trainingFails i f = (s.trainFenced i x pl.position f).expel i none := by
  have told : s.sendTrained i false = s.send (.trained x.tag (byteOf pl.position) false) := by
    rw [State.sendTrained, h.place, h.ownerTag]
  have fills : (s.send (.trained x.tag (byteOf pl.position) false)).Fills i pl x p := h.congr (by simp) (by simp)
  rw [State.trainingFails, told, fills.ownerTag]
  rfl

/-- With room for both messages they are placed, TRAINED first, and no loss is marked. -/
theorem State.trainFenced_room (v : s.scratch.overflow = false) {m : Nat} (room : s.Room (m + 2)) (x : Circuit) (n : Nat)
    (f : Byte) : (s.trainFenced i x n f).scratch = s.scratch
      ∧ (s.trainFenced i x n f).placed
        = s.placed ++ [.trained x.tag (byteOf n) false, .fence (byteOf i.val) .training]
      ∧ (s.trainFenced i x n f).Room m := by
  have sent := State.Room.send (n := m + 1) room (.trained x.tag (byteOf n) false)
  have marks := State.send_scratch s (.trained x.tag (byteOf n) false) (State.Room.lt (n := m + 1) room)
  have told := State.placed_send s (.trained x.tag (byteOf n) false) room.1 v (State.Room.lt (n := m + 1) room)
  obtain ⟨marks', placed⟩ := State.setLocalFence_room (s.send (.trained x.tag (byteOf n) false)) i (some x.tag)
    (.training f) (by rw [marks]; exact v) sent.lt
  refine ⟨marks'.trans marks, placed.trans ?_, sent.setLocalFence i _ _⟩
  rw [if_pos sent.1, told, List.append_assoc]
  rfl

/-- What `t` shows where, from `s`, the training run of the lane `i` of the circuit `x` has failed and `more` was placed behind
its messages. -/
structure State.TrainFailed (s t : State) (i : LaneId) (pl : Place) (x : Circuit) (f : Byte) (more : List Msg) : Prop where
  marks : t.scratch = s.scratch
  lane : t.lane i = ((s.lane i).fenceLocally s.params).clearPlace.enter .quarantined
  logged : ∃ e ∈ t.ring, e.kind = .laneTrainFail ∧ e.lane = some i ∧ e.tag = some x.tag ∧ e.detail = f.zeroExtend 16
  placed : t.placed
    = s.placed ++ .trained x.tag (byteOf pl.position) false :: .fence (byteOf i.val) .training :: more

/-- R90, R113: the lane is out of its circuit. -/
theorem State.trainFailed_outOfCircuit (v : s.scratch.overflow = false) {m : Nat} (room : s.Room (m + 2)) (f : Byte) :
    s.TrainFailed ((s.trainFenced i x pl.position f).outOfCircuit i) i pl x f [] := by
  obtain ⟨marks, placed, -⟩ := State.trainFenced_room (i := i) v room x pl.position f
  obtain ⟨-, -, -, -, -, -, ring, -, -, marks', placed'⟩ :=
    (s.trainFenced i x pl.position f).outOfCircuit_rest i
  refine ⟨marks'.trans marks, ?_, ?_, placed'.trans placed⟩
  · rw [State.lane_outOfCircuit, if_pos rfl, State.lane_trainFenced, if_pos rfl]
  · rw [ring]
    exact State.logged_setLocalFence_training _ i (some x.tag) f

/-- R90, R113 to R115: what a failed run leaves, by the role of its circuit and the pool. -/
theorem State.Fills.trainFailed (h : s.Fills i pl x p)
    (role : x.role = .answer ∨ x.role = .origin ∧ x.live = true ∧ p.repair ≠ .proposed ∧ p.attempts < 3)
    (out : i ∉ s.pool) (v : s.scratch.overflow = false) (room : s.Room 3) (f : Byte) :
    ∃ more, s.TrainFailed (s.trainingFails i f) i pl x f more
      ∧ (x.role = .answer → more = [])
      ∧ (x.role = .origin → s.pool = [] → more = [] ∧ (pl.slot, pl.position) ∈ (s.trainingFails i f).seeking)
      ∧ (x.role = .origin → ∀ j rest, s.pool = j :: rest →
          more = [.amend x.tag (byteOf pl.position) (some (byteOf j.val))]
          ∧ ((s.trainingFails i f).lane j).state = .claimed
          ∧ ((s.trainingFails i f).lane j).place = some ⟨pl.slot, .replacement, pl.position⟩) := by
  have fenced := h.trainFenced pl.position f
  obtain ⟨marks, lane, logged, placed⟩ := State.trainFailed_outOfCircuit (i := i) (pl := pl) (x := x) v (m := 1) room f
  rw [h.trainingFails]
  rcases role with answer | ⟨origin, live, free, few⟩
  · rw [fenced.expel_quiet (.inl answer)]
    exact ⟨[], ⟨marks, lane, logged, placed⟩, fun _ => rfl, by simp [answer], by simp [answer]⟩
  · rw [fenced.expel_picks origin live free]
    obtain ⟨-, -, able⟩ := State.trainFenced_room (i := i) v (m := 1) room x pl.position f
    have circuit := fenced.circuit_outOfCircuit
    have position := Circuit.getElem?_without h.position
    have pool : ((s.trainFenced i x pl.position f).outOfCircuit i).pool = s.pool := by
      rw [State.pool_outOfCircuit]
      simpa [State.trainFenced] using List.filter_ne_self out
    have able : ((s.trainFenced i x pl.position f).outOfCircuit i).Room 1 := by simpa [State.Room] using able
    have few : (p.without pl.role).attempts < 3 := by simpa using few
    generalize (s.trainFenced i x pl.position f).outOfCircuit i = r at *
    obtain ⟨seeks, proposes⟩ := State.pickShown_pick circuit position live few (by rw [marks]; exact v) able
    obtain ⟨marks', -, ring, lanes, -⟩ := State.frame_pick circuit position live few able
    rw [pool] at seeks proposes lanes
    have fails {more : List Msg} (e : (r.pick pl.slot pl.position).placed = r.placed ++ more) :
        s.TrainFailed (r.pick pl.slot pl.position) i pl x f more :=
      ⟨marks'.trans marks, (lanes i out).trans lane, by rw [ring]; exact logged, by rw [e, placed]; simp⟩
    cases heads : s.pool with
    | nil =>
      obtain ⟨sent, seeking, -⟩ := seeks heads
      exact ⟨[], fails (by rw [sent, List.append_nil]), fun _ => rfl, fun _ _ => ⟨rfl, seeking⟩, by simp⟩
    | cons j rest =>
      obtain ⟨sent, state, place, -⟩ := proposes j rest heads
      refine ⟨_, fails sent, by simp [origin], by simp, fun _ k tail e => ?_⟩
      obtain ⟨rfl, -⟩ := List.cons.inj e
      exact ⟨rfl, state, place⟩

end Fails

/-! ### The statement -/

section Clauses

variable {s : State} {u : UnitId} {d : Dwell} {o : DwellOutcome} {rec : TrainRec} {f : Byte}

/-- R85 to R87: a result of the search. -/
theorem exec_train_search (busy : s.unit u = some d) (train : d.purpose = .train) (run : d.run = (s.lane d.lane).run)
    (training : (s.lane d.lane).training = some rec) (clear : s.Unmarked) (unqueued : s.dwellQueued d.lane = false)
    (figure : figureOf o = f) (searching : rec.phase ≠ .confirm) :
    ∃ t p a, exec (.dwellResult u o) s = .next t
      ∧ t.lane d.lane = { s.lane d.lane with training := some (rec.search f), preset := p, applied := a }
      ∧ (t.dwellQueued d.lane = true ∨ ∃ v, t.unit v = some ⟨d.lane, .train, (s.lane d.lane).run⟩) := by
  obtain ⟨asked, p, a, lane⟩ := State.finish_requestDwell_shows (i := d.lane)
    (s := (s.freed u).recorded d.lane (rec.search f)) (State.scratch_freed clear u) unqueued
  rw [State.lane_recorded] at asked lane
  refine ⟨_, p, a, exec_train busy train run o, ?_⟩
  rw [figure, State.trainResult_search (s := s.freed u) training searching]
  exact ⟨lane, asked⟩

/-- R83, R84, R89: a CONFIRM below Q with attempts left. -/
theorem exec_train_again (busy : s.unit u = some d) (train : d.purpose = .train) (run : d.run = (s.lane d.lane).run)
    (training : (s.lane d.lane).training = some rec) (clear : s.Unmarked) (figure : figureOf o = f)
    (confirm : rec.phase = .confirm) (below : f.toNat < s.params.qualify) (left : rec.attempt < s.params.trainAttempts) :
    ∃ t p a, exec (.dwellResult u o) s = .next t
      ∧ t.lane d.lane = { s.lane d.lane with
          run := (s.lane d.lane).run + 1, training := some (freshRecord s.params (s.lane d.lane) (rec.attempt + 1)),
          preset := p, applied := a } := by
  have left : rec.attempt < (s.freed u).params.trainAttempts := left
  obtain ⟨p, a, lane⟩ :=
    State.finish_restartAttempt (i := d.lane) (State.scratch_freed clear u) (rec.attempt + 1)
  refine ⟨_, p, a, exec_train busy train run o, ?_⟩
  rw [figure, State.trainResult_below (s := s.freed u) training confirm below, if_pos left]
  exact lane

/-- R90: a CONFIRM below Q without attempts left fails the run. -/
theorem exec_train_fails (busy : s.unit u = some d) (train : d.purpose = .train) (run : d.run = (s.lane d.lane).run)
    (training : (s.lane d.lane).training = some rec) (figure : figureOf o = f)
    (confirm : rec.phase = .confirm) (below : f.toNat < s.params.qualify) (spent : s.params.trainAttempts ≤ rec.attempt) :
    exec (.dwellResult u o) s = .next ((s.freed u).trainingFails d.lane f).finish := by
  have spent : ¬ rec.attempt < (s.freed u).params.trainAttempts := Nat.not_lt.mpr spent
  rw [exec_train busy train run o, figure, State.trainResult_below (s := s.freed u) training confirm below, if_neg spent]

end Clauses

/-- Settles O54, by the phase: the search, the next attempt, the failed run. -/
theorem trainResultTaken : Obligations.TrainResultTaken := by
  intro s u d o rec f busy train run training clear _ unqueued figure
  have figure : figureOf o = f := by rw [figure]; cases o <;> rfl
  refine ⟨fun searching best bestFom misses scores => ?_, fun confirm below left => ?_,
    fun confirm below spent pl x p place circuit position role out room => ?_⟩
  · obtain ⟨t, p, a, result, lane, asked⟩ :=
      exec_train_search busy train run training clear unqueued figure searching
    have score := TrainRec.Scores.score scores
    have same := TrainRec.sameAttempt_search searching f
    rw [score] at same
    obtain ⟨attempt, start, lookBeyond, best', bestFom'⟩ := same
    refine ⟨t, rec.search f, result, by rw [lane], by rw [lane], by rw [lane], by rw [lane], asked, attempt, start,
      lookBeyond, best', bestFom', fun ascend few under => ?_, fun ascend ends => ⟨fun atStart above => ?_,
        fun m found other => ?_⟩, fun descend few above => ?_, fun descend ends m found => ?_⟩
    · rw [TrainRec.search_ascend ascend, score, TrainRec.afterAscend_up (r := rec.scoredAs best bestFom misses) few under]
      exact ⟨ascend, PresetId.val_succ under, rfl⟩
    · rw [TrainRec.search_ascend ascend, score,
        TrainRec.afterAscend_turns (r := rec.scoredAs best bestFom misses) ends atStart above]
      exact ⟨rfl, PresetId.val_pred above, rfl⟩
    · rw [TrainRec.search_ascend ascend, score]
      exact TrainRec.afterAscend_confirms ends found other
    · rw [TrainRec.search_descend descend, score, TrainRec.afterDescend_down (r := rec.scoredAs best bestFom misses) few above]
      exact ⟨descend, PresetId.val_pred above, rfl⟩
    · rw [TrainRec.search_descend descend, score]
      exact TrainRec.afterDescend_confirms ends found
  · obtain ⟨t, p, a, result, lane⟩ :=
      exec_train_again busy train run training clear figure confirm below left
    refine ⟨t, result, by rw [lane], by rw [lane], by rw [lane],
      freshRecord s.params (s.lane d.lane) (rec.attempt + 1), by rw [lane], rfl, rfl, rfl, rfl, rfl, rfl, fun later => ?_⟩
    exact startPreset_of_later _ _ (by omega)
  · have fills : (s.freed u).Fills d.lane pl x p := ⟨place, circuit, position⟩
    have marks := State.scratch_freed clear u
    obtain ⟨more, failed, answers, seeks, proposes⟩ := fills.trainFailed role out (by rw [marks]) room f
    obtain ⟨placed, ring, seeking, lanes⟩ := State.finish_granting_shows (failed.marks.trans marks)
    obtain ⟨preset, applied, lane⟩ := lanes d.lane
    rw [failed.lane] at lane
    refine ⟨_, more, exec_train_fails busy train run training figure confirm below spent, ?_⟩
    rw [lane, placed, ring, seeking]
    refine ⟨rfl, rfl, rfl, rfl, rfl, rfl, failed.logged, failed.placed, answers, seeks, fun origin j rest heads => ?_⟩
    obtain ⟨amend, state, taken⟩ := proposes origin j rest heads
    obtain ⟨_, _, head⟩ := lanes j
    rw [head]
    exact ⟨amend, state, taken⟩

end Sys2Proof.Machine
end

section
/-! SUPPORT. Sys2Proof/Proofs/SweepTick.lean: the sweep tick: its count and timer, the health requests it makes and the
sweeps that lanes miss (R97 to R99). -/

namespace Sys2Proof.Machine

open Sys2Proof

/-! ### The sweep count and the timer (R97) -/

/-- The sweep count and the sweep timer stand at these values. -/
def State.SweepClock (n : Half) (timer : Timer) (s : State) : Prop := s.sweepCount = n ∧ s.sweepTimer = timer

theorem kept_sweepClock (n : Half) (timer : Timer) : Kept (State.SweepClock n timer) :=
  kept_of_within fun _ _ w h => ⟨w.sweepCount.trans h.1, w.sweepTimer.trans h.2⟩

/-- R98, R99: health requests and their entry leave the clock alone. -/
theorem State.SweepClock.sweep {n : Half} {timer : Timer} {s : State} (h : s.SweepClock n timer) :
    s.sweep.SweepClock n timer := by
  obtain ⟨ls, q, g, r, m, e, -⟩ := s.sweep_eq
  rw [e]
  exact h

/-- R97: once the tick has begun, nothing in it moves its clock again. -/
theorem State.sweepClock_swept (s : State) :
    s.swept.SweepClock (s.sweepCount + 1) (.running s.params.sweepInterval) := by
  have k := kept_sweepClock (s.sweepCount + 1) (.running s.params.sweepInterval)
  have begun : s.sweepBegin.SweepClock (s.sweepCount + 1) (.running s.params.sweepInterval) := ⟨rfl, rfl⟩
  exact k.finish (State.SweepClock.sweep (k.countPatience (k.countSeeking (k.reportGrowth (k.countAges begun)))))

/-! ### A tick that counts nothing down (R12, R61, R115) -/

/-- R97: no age is counted, no position is sought and nobody waits: the tick makes its health requests and ends. -/
theorem State.swept_of_uncounted {s : State} (aged : s.sweepBegin.countAges = s.sweepBegin) (nobody : s.NobodyWaits)
    (clear : s.Unmarked) : s.swept = s.sweepBegin.sweep.finish := by
  obtain ⟨seeking, waiting⟩ := nobody
  have marks : s.sweepBegin.scratch.grown = false := congrArg Scratch.grown clear
  have still : s.sweepBegin.reportGrowth = s.sweepBegin := if_neg (by simp [marks])
  have sought : s.sweepBegin.countSeeking = s.sweepBegin := by
    have none : s.sweepBegin.seeking = [] := seeking
    rw [State.countSeeking, none]
    rfl
  have counted : s.sweepBegin.countPatience = s.sweepBegin := State.countPatience_of_nobody waiting
  rw [State.swept, State.sweepReleased, aged, still, sought, counted]

/-- R98: with no ACTIVE lane there is nothing to ask for. -/
theorem State.sweep_of_none_active {s : State} (h : ∀ i, (s.lane i).state ≠ .active) : s.sweep = s := by
  have none : s.activeLanes = [] := List.filter_eq_nil_iff.mpr fun i _ => by simpa using h i
  unfold State.sweep
  rw [none]
  rfl

/-! ### One health request (R98) -/

theorem State.missed_healthRequest (s : State) (i j : LaneId) : ((s.healthRequest i).lane j).missed
    = if j = i ∧ s.dwellQueued i = true then satSucc 255 (s.lane j).missed else (s.lane j).missed := by
  unfold State.healthRequest
  split
  · rename_i queued
    rw [State.lane_modLane]
    by_cases own : j = i
    · simp [own, queued]
    · simp [own]
  · rename_i unqueued
    rw [State.requestDwell_of_unqueued (by simpa using unqueued), if_neg fun h => unqueued h.2]
    rfl

theorem State.run_healthRequest (s : State) (i j : LaneId) : ((s.healthRequest i).lane j).run = (s.lane j).run := by
  obtain ⟨ls, q, g, e, lane⟩ := s.healthRequest_eq i
  obtain ⟨m, own⟩ := lane j
  have after : (s.healthRequest i).lane j = ls.get j := by rw [e]; rfl
  rw [after, own]

/-- R71: what a health request leaves queued: what was, and behind it the lane's own request where it had none. -/
theorem State.dwellQueue_healthRequest (s : State) (i : LaneId) : (s.healthRequest i).dwellQueue
    = s.dwellQueue ++ if s.dwellQueued i = true then [] else [⟨i, .health, (s.lane i).run⟩] := by
  unfold State.healthRequest
  split
  · exact (List.append_nil _).symm
  · rename_i unqueued
    rw [State.requestDwell_of_unqueued (by simpa using unqueued)]
    rfl

/-- A lane's health request is no other lane's. -/
theorem State.dwellQueued_healthRequest_of_ne (s : State) {i j : LaneId} (ne : j ≠ i) :
    (s.healthRequest i).dwellQueued j = s.dwellQueued j := by
  unfold State.dwellQueued
  rw [State.dwellQueue_healthRequest]
  split
  · rw [List.append_nil]
  · simp [Ne.symm ne]

/-! ### The health requests of a tick (R98) -/

/-- R98: each lane asked for counts a missed sweep where its own request stood queued before the tick. -/
theorem State.missed_foldl_healthRequest {l : List LaneId} (nd : l.Nodup) (s : State) (j : LaneId) :
    ((l.foldl State.healthRequest s).lane j).missed
      = if j ∈ l ∧ s.dwellQueued j = true then satSucc 255 (s.lane j).missed else (s.lane j).missed := by
  induction l generalizing s with
  | nil => simp
  | cons a l ih =>
    obtain ⟨fresh, nd⟩ := List.nodup_cons.mp nd
    rw [List.foldl_cons, ih nd, State.missed_healthRequest]
    by_cases own : j = a
    · subst own
      simp [fresh]
    · simp [own, s.dwellQueued_healthRequest_of_ne own]

theorem State.mem_dwellQueue_foldl_healthRequest (l : List LaneId) {s : State} {d : Dwell} (h : d ∈ s.dwellQueue) :
    d ∈ (l.foldl State.healthRequest s).dwellQueue := by
  induction l generalizing s with
  | nil => exact h
  | cons a l ih =>
    refine ih (s := s.healthRequest a) ?_
    rw [State.dwellQueue_healthRequest]
    exact List.mem_append_left _ h

/-- R98: each lane asked for that had no request queued has one. -/
theorem State.health_mem_foldl_healthRequest {l : List LaneId} (nd : l.Nodup) {s : State} {i : LaneId} (mem : i ∈ l)
    (unqueued : s.dwellQueued i = false) :
    ⟨i, .health, (s.lane i).run⟩ ∈ (l.foldl State.healthRequest s).dwellQueue := by
  induction l generalizing s with
  | nil => cases mem
  | cons a l ih =>
    obtain ⟨-, nd⟩ := List.nodup_cons.mp nd
    by_cases own : i = a
    · subst own
      refine State.mem_dwellQueue_foldl_healthRequest l (s := s.healthRequest i) ?_
      simp [State.dwellQueue_healthRequest, unqueued]
    · have later := (List.mem_cons.mp mem).resolve_left own
      have asked := ih nd (s := s.healthRequest a) later
        ((s.dwellQueued_healthRequest_of_ne own).trans unqueued)
      rwa [State.run_healthRequest] at asked

/-! ### The sweep (R98, R99) -/

/-- R99: the ACTIVE lanes that miss the sweep. -/
def State.missedLanes (s : State) : List LaneId := s.activeLanes.filter s.dwellQueued

theorem State.mem_activeLanes (s : State) (i : LaneId) : i ∈ s.activeLanes ↔ (s.lane i).state = .active := by
  simp [State.activeLanes]

theorem State.nodup_activeLanes (s : State) : s.activeLanes.Nodup := (indexes_nodup 24).filter _

theorem State.missedLanes_eq (s : State) : s.missedLanes
    = (indexes 24).filter fun i => decide ((s.lane i).state = .active) && s.dwellQueued i := by
  rw [State.missedLanes, State.activeLanes, List.filter_filter]
  exact List.filter_congr fun i _ => Bool.and_comm _ _

/-- R98, R99: the sweep is its health requests, with an entry behind them where a lane missed. -/
theorem State.sweep_of_nobody_missed {s : State} (h : s.missedLanes = []) :
    s.sweep = s.activeLanes.foldl State.healthRequest s := if_pos h

theorem State.sweep_of_missed {s : State} (h : s.missedLanes ≠ []) : s.sweep
    = (s.activeLanes.foldl State.healthRequest s).log .sweepMissed none none (BitVec.ofNat 16 s.missedLanes.length) :=
  if_neg h

/-- R99: the entry touches neither the lanes nor the dwell queue. -/
theorem State.sweep_keeps (s : State) : s.sweep.lanes = (s.activeLanes.foldl State.healthRequest s).lanes
    ∧ s.sweep.dwellQueue = (s.activeLanes.foldl State.healthRequest s).dwellQueue := by
  by_cases h : s.missedLanes = []
  · rw [State.sweep_of_nobody_missed h]
    exact ⟨rfl, rfl⟩
  · rw [State.sweep_of_missed h]
    exact ⟨rfl, rfl⟩

theorem State.missed_sweep (s : State) (i : LaneId) : (s.sweep.lane i).missed
    = if i ∈ s.missedLanes then min 255 ((s.lane i).missed + 1) else (s.lane i).missed := by
  rw [State.lane, s.sweep_keeps.1, State.missedLanes]
  simp only [List.mem_filter]
  exact State.missed_foldl_healthRequest s.nodup_activeLanes s i

theorem State.health_mem_sweep {s : State} {i : LaneId} (active : (s.lane i).state = .active)
    (unqueued : s.dwellQueued i = false) : ⟨i, .health, (s.lane i).run⟩ ∈ s.sweep.dwellQueue := by
  rw [s.sweep_keeps.2]
  exact State.health_mem_foldl_healthRequest s.nodup_activeLanes ((s.mem_activeLanes i).mpr active) unqueued

theorem State.ring_sweep_of_nobody_missed {s : State} (h : s.missedLanes = []) : s.sweep.ring = s.ring := by
  obtain ⟨ls, q, g, e, -⟩ := State.foldl_healthRequest s.activeLanes s
  rw [State.sweep_of_nobody_missed h, e]

theorem State.getLast?_ring_sweep {s : State} (h : s.missedLanes ≠ []) :
    s.sweep.ring.getLast?.map (fun e => (e.kind, e.lane, e.tag, e.sweeps, e.detail))
      = some (.sweepMissed, none, none, s.sweepCount, BitVec.ofNat 16 s.missedLanes.length) := by
  obtain ⟨ls, q, g, e, -⟩ := State.foldl_healthRequest s.activeLanes s
  rw [State.sweep_of_missed h, State.getLast?_log, e]
  rfl

/-- The sweep gives nobody a wait and marks no loss. -/
theorem State.NobodyWaits.sweep {s : State} (h : s.NobodyWaits) (loss : s.scratch.overflow = false) :
    s.sweep.NobodyWaits ∧ s.sweep.scratch.overflow = false := by
  obtain ⟨ls, q, g, r, n, e, -⟩ := s.sweep_eq
  rw [e]
  exact ⟨h, loss⟩

/-! ### The end of the tick (R72) -/

/-- The end of an event while nobody waits: a request is granted or still waits, and the fault log stands. -/
theorem State.NobodyWaits.finish_shows {s : State} (h : s.NobodyWaits) (loss : s.scratch.overflow = false) :
    s.finish.ring = s.ring
      ∧ ∀ d ∈ s.dwellQueue, d ∈ s.finish.dwellQueue ∨ ∃ v, s.finish.unit v = some d := by
  rw [State.finish_of_quiet s h loss]
  split
  · refine ⟨?_, fun d mem => State.grantUpTo_keeps_request 4 (.inl mem)⟩
    obtain ⟨ls, q, us, e, -⟩ := s.grant_eq
    rw [e]
  · exact ⟨rfl, fun d mem => .inl mem⟩

/-- R97 to R99: what a tick shows of the lanes' missed sweeps, the fault log and the health requests where it counts
nothing down. -/
theorem State.swept_shows {s : State} (unfenced : ∀ i, (s.lane i).localFence = false) (nobody : s.NobodyWaits)
    (clear : s.Unmarked) :
    (∀ i, (s.swept.lane i).missed = (s.sweepBegin.sweep.lane i).missed) ∧ s.swept.ring = s.sweepBegin.sweep.ring
      ∧ ∀ d ∈ s.sweepBegin.sweep.dwellQueue, d ∈ s.swept.dwellQueue ∨ ∃ v, s.swept.unit v = some d := by
  have loss : s.sweepBegin.scratch.overflow = false := congrArg Scratch.overflow clear
  obtain ⟨waits, loss⟩ := State.NobodyWaits.sweep (s := s.sweepBegin) nobody loss
  obtain ⟨-, lanes⟩ := waits.finish_keeps loss
  rw [State.swept_of_uncounted (State.countAges_of_unfenced unfenced) nobody clear]
  refine ⟨fun i => ?_, waits.finish_shows loss⟩
  obtain ⟨p, a, own⟩ := lanes i
  rw [own]

/-- Settles O57: the clock by what the shared work keeps, the rest by the health requests lane by lane. -/
theorem sweepTickWork : Obligations.SweepTickWork := by
  intro s ms timer
  have runs : s.sweepTimer.runs = true := by rw [timer]; rfl
  obtain ⟨count, restarted⟩ := s.sweepClock_swept
  refine ⟨s.swept, congrArg Host.Outcome.next (if_pos ⟨runs, rfl⟩), count, restarted,
    fun down nobody clear inactive => ?_, fun i _ nobody clear unfenced active empty => ?_,
    fun nobody clear unfenced missed hmissed => ?_⟩
  · have aged : s.sweepBegin.countAges = s.sweepBegin := if_neg down
    have swept : s.sweepBegin.sweep = s.sweepBegin := State.sweep_of_none_active inactive
    have unmarked : s.sweepBegin.Unmarked := clear
    rw [State.swept_of_uncounted aged nobody clear, swept, State.finish_of_unmarked _ unmarked]
    rfl
  · obtain ⟨-, -, requests⟩ := State.swept_shows unfenced nobody clear
    have unqueued : s.sweepBegin.dwellQueued i = false := by
      have none : s.sweepBegin.dwellQueue = [] := empty
      rw [State.dwellQueued, none]
      rfl
    refine (requests _ (State.health_mem_sweep (s := s.sweepBegin) active unqueued)).imp_left fun waits => ?_
    exact List.any_eq_true.mpr ⟨_, waits, decide_eq_true rfl⟩
  · obtain ⟨lanes, ring, -⟩ := State.swept_shows unfenced nobody clear
    have same : s.sweepBegin.missedLanes = missed := s.sweepBegin.missedLanes_eq.trans hmissed.symm
    rw [ring, ← same]
    exact ⟨fun i => (lanes i).trans (s.sweepBegin.missed_sweep i), State.ring_sweep_of_nobody_missed,
      State.getLast?_ring_sweep⟩

end Sys2Proof.Machine
end

section
/-! SUPPORT. Sys2Proof/Proofs/LaneFail.lean: LANE_FAIL at the origin, by the phase of the circuit (R110, R111, R114,
R115). -/

namespace Sys2Proof.Machine

open Sys2Proof

/-! ### A repair that begins on a received message (R110, R114, R115) -/

/-- R115: a position that finds the pool empty joins the tail of the seeking list. -/
theorem State.seeking_pick {s : State} {c : SlotId} {n : Nat} {x : Circuit} {q : Position} (hx : s.circuit c = some x)
    (hq : x.positions[n]? = some q) (live : x.live = true) (left : q.attempts < 3) (empty : s.pool = []) :
    (s.pick c n).seeking = (s.seeking.filter fun cp => decide (cp ≠ (c, n))) ++ [(c, n)] := by
  rw [State.pick_of hx hq live left, empty]
  dsimp only
  rw [State.seek_eq]

/-- What the owner of a message has left of `r` in `v` when it comes to a pick. -/
structure State.ReachesPick (r v : State) : Prop where
  pool : v.pool = r.pool
  params : v.params = r.params
  seeking : v.seeking = r.seeking
  placed : v.placed = r.placed
  marks : v.scratch = { received := true }
  room : v.Room 1

/-- What `t` shows where, from `r`, a message's event has ended with a pick, made in `v`, for the position `n` of the
circuit `z`, which stands as `q`; `y` is the circuit then. -/
structure State.BeginsRepair (r v t : State) (c : SlotId) (n : Nat) (z y : Circuit) (q : Position) : Prop where
  circuit : t.circuit c = some y
  state : y.state = z.state
  lane : ∀ i, i ∉ r.pool → t.lane i = v.lane i
  proposes : ∀ j rest, r.pool = j :: rest → (t.lane j).state = .claimed ∧ (t.lane j).place = some ⟨c, .replacement, n⟩
    ∧ y.positions[n]? = some (q.proposing j)
    ∧ t.placed = r.placed ++ [.amend z.tag (byteOf n) (some (byteOf j.val))]
  seeks : r.pool = [] → t.placed = r.placed
    ∧ t.seeking = (r.seeking.filter fun cp => decide (cp ≠ (c, n))) ++ [(c, n)]
    ∧ y.positions[n]? = some (q.seeks r.params.repairPatience)

theorem State.ReachesPick.beginsRepair {r v : State} (h : r.ReachesPick v) {c : SlotId} {n : Nat} {z : Circuit}
    {q : Position} (hz : v.circuit c = some z) (hq : z.positions[n]? = some q) (live : z.live = true)
    (few : q.attempts < 3) : ∃ y, r.BeginsRepair v (v.pick c n).finish c n z y q := by
  obtain ⟨pool, params, seeking, placed, marks, room⟩ := h
  obtain ⟨marks', -, -, lane, f, circuit, -⟩ := State.frame_pick hz hq live few room
  obtain ⟨seeks, proposes⟩ := State.pickShown_pick hz hq live few (by rw [marks]) room
  have joins := State.seeking_pick hz hq live few
  rw [State.position_eq circuit, pool, placed] at seeks proposes
  rw [pool] at lane joins
  rw [params] at seeks
  rw [seeking] at joins
  rw [State.finish_of_clear _ ⟨true, marks'.trans marks⟩]
  refine ⟨_, circuit, rfl, lane, fun j rest e => ?_, fun empty => ?_⟩
  · obtain ⟨placed, state, place, position⟩ := proposes j rest e
    exact ⟨state, place, position, placed⟩
  · obtain ⟨placed, -, position⟩ := seeks empty
    exact ⟨placed, joins empty, position⟩

/-! ### LANE_FAIL (R44, R110, R111) -/

/-- R44, R111: LANE_FAIL that finds no current lane of a live origin circuit. -/
theorem State.takeLaneFail_discards {s : State} {g : Tag} {c : SlotId} {x : Circuit} {b : Byte}
    (known : s.matchTag g = some (c, x)) (w : x.role = .answer ∨ x.live = false
      ∨ ∀ p, x.positions[b.toNat]? = some p → p.dropped = true ∨ p.current = none) : s.takeLaneFail g b = s := by
  rw [State.takeLaneFail, known]
  dsimp only
  split
  · rfl
  · rename_i serves
    have w := (w.resolve_left fun e => serves (.inr e)).resolve_left fun e => serves (.inl e)
    rw [State.position_eq (State.circuit_of_matchTag known)]
    cases position : x.positions[b.toNat]? with
    | none => rfl
    | some p =>
      cases current : p.current with
      | none => simp only [current]
      | some i =>
        have dropped : p.dropped = true := (w p position).resolve_right (by simp [current])
        simp only [current, dropped, if_true]

theorem State.takeLaneFail_of {s : State} {g : Tag} {c : SlotId} {x : Circuit} {b : Byte} {p : Position} {i : LaneId}
    (known : s.matchTag g = some (c, x)) (origin : x.role = .origin) (live : x.live = true)
    (position : x.positions[b.toNat]? = some p) (held : p.dropped = false) (current : p.current = some i) :
    s.takeLaneFail g b = s.peerFailed c x b.toNat i := by
  simp [State.takeLaneFail, known, origin, live, State.position_eq (State.circuit_of_matchTag known), position, held,
    current]

section Fails

variable {r : State} {c : SlotId} {n : Nat} {x : Circuit} {p : Position}

/-- R110, R111: in the UP phase the lane stays in its place, and a repair begins where none is in course. -/
theorem State.peerFailed_upPhase (clear : r.Unmarked) (hx : r.circuit c = some x) (hp : x.positions[n]? = some p)
    (up : x.state = .up ∨ x.state = .repairing) (i : LaneId) :
    (p.repair ≠ .none → (r.received.peerFailed c x n i).finish = r.setPeerFence i)
    ∧ (p.repair = .none → p.dropped = false → p.attempts < 3 → i ∉ r.pool → r.Room 1 →
      ∃ y v, r.BeginsRepair v (r.received.peerFailed c x n i).finish c n x.repairing y p
        ∧ v.lane i = { r.lane i with peerFence := true }) := by
  have phase : x.upPhase = true := by simpa [Circuit.upPhase] using up
  have form : r.received.peerFailed c x n i = (r.received.setPeerFence i).startRepair c n := if_pos phase
  have circuit : (r.received.setPeerFence i).circuit c = some x := hx
  have marks : (r.received.setPeerFence i).scratch = { received := true } := State.scratch_received clear
  rw [form]
  refine ⟨fun busy => ?_, fun idle held few out room => ?_⟩
  · rw [State.startRepair_of_busy circuit hp busy, State.finish_of_clear _ ⟨true, marks⟩]
    exact State.unmark_modLane_received clear i _
  · rw [State.startRepair_of circuit hp idle held]
    obtain ⟨-, params, trunk, -, seeking, -, pool, -, sends, -, marks', placed, lane⟩ :=
      (r.received.setPeerFence i).markRepairing_rest c
    have reaches : r.ReachesPick ((r.received.setPeerFence i).markRepairing c) :=
      ⟨pool, params, seeking, placed, marks'.trans marks, trunk.trans room.1, by rw [sends]; exact room.2⟩
    have live : x.repairing.live = true := by simp [Circuit.live, Circuit.state_repairing up]
    obtain ⟨y, begins⟩ := reaches.beginsRepair (State.circuit_markRepairing circuit) hp live few
    exact ⟨y, _, begins, (lane i).trans ((State.lane_setPeerFence r.received i i).trans (if_pos rfl))⟩

/-- R111, R113, R114: in the setup phase the lane leaves as QUARANTINED and its position makes a pick. -/
theorem State.peerFailed_setup (clear : r.Unmarked) (hx : r.circuit c = some x) (hp : x.positions[n]? = some p)
    (setup : x.state = .training) (origin : x.role = .origin) (free : p.repair ≠ .proposed) (few : p.attempts < 3)
    {i : LaneId} (place : (r.lane i).place = some ⟨c, .current, n⟩) (out : i ∉ r.pool) (room : r.Room 1) :
    ∃ y v, r.BeginsRepair v (r.received.peerFailed c x n i).finish c n (x.without ⟨c, .current, n⟩) y
        (p.without .current)
      ∧ v.lane i = ({ r.lane i with peerFence := true } : Lane).clearPlace.enter .quarantined := by
  have phase : x.upPhase = false := by simp [Circuit.upPhase, setup]
  have live : x.live = true := by simp [Circuit.live, setup]
  have form : r.received.peerFailed c x n i = (r.received.setPeerFence i).expel i none := if_neg (by simp [phase])
  have fills : (r.received.setPeerFence i).Fills i ⟨c, .current, n⟩ x p :=
    State.Fills.setPeerFence (s := r.received) ⟨place, hx, hp⟩
  rw [form, fills.expel_picks origin live free]
  obtain ⟨-, params, trunk, -, seeking, -, -, sends, -, marks, placed⟩ := (r.received.setPeerFence i).outOfCircuit_rest i
  have pool : ((r.received.setPeerFence i).outOfCircuit i).pool = r.pool :=
    (State.pool_outOfCircuit ..).trans (List.filter_ne_self out)
  have reaches : r.ReachesPick ((r.received.setPeerFence i).outOfCircuit i) :=
    ⟨pool, params, seeking, placed, marks.trans (State.scratch_received clear), trunk.trans room.1,
      by rw [sends]; exact room.2⟩
  obtain ⟨y, begins⟩ := reaches.beginsRepair fills.circuit_outOfCircuit (Circuit.getElem?_without hp) live
    (by simpa using few)
  exact ⟨y, _, begins, (State.lane_setPeerFence_outOfCircuit r.received i i).trans (if_pos rfl)⟩

end Fails

/-- Settles O48, by the phase of the circuit; a pick ends either. -/
theorem laneFailTaken : Obligations.LaneFailTaken := by
  rintro s r q a g b why inOrder rfl clear
  have clear : (s.counted a).Unmarked := (s.scratch_counted a).trans clear
  have taken : exec (.laneFail q a g b why) s = .next ((s.counted a).received.takeLaneFail g b).finish :=
    congrArg Host.Outcome.next (State.receive_inOrder inOrder a _)
  rw [taken]
  generalize s.counted a = r at *
  have idle := State.finish_received clear
  refine ⟨fun unknown => ?_, fun c x known => ?_⟩
  · have unknown : r.received.matchTag g = none := unknown
    rw [State.takeLaneFail, unknown]
    exact congrArg _ idle
  have known : r.received.matchTag g = some (c, x) := known
  have circuit : r.circuit c = some x := State.circuit_of_matchTag known
  refine ⟨fun w => ?_, fun p position => ⟨fun w => ?_, fun i origin held current => ⟨fun up busy => ?_,
    fun left st out room phase => ?_⟩⟩⟩
  · rw [State.takeLaneFail_discards known, idle]
    rcases w with answer | proposed | closing | absent
    · exact .inl answer
    · exact .inr (.inl (by simp [Circuit.live, proposed]))
    · exact .inr (.inl (by simp [Circuit.live, closing]))
    · exact .inr (.inr (by simp [absent]))
  · rw [State.takeLaneFail_discards known (.inr (.inr fun p' same => ?_)), idle]
    obtain rfl := Option.some.inj (position.symm.trans same)
    exact w
  · have live : x.live = true := by rcases up with e | e <;> simp [Circuit.live, e]
    rw [State.takeLaneFail_of known origin live position held current,
      (State.peerFailed_upPhase clear circuit position up i).1 busy]
  · have byte : byteOf b.toNat = b := byteOf_of_toNat rfl
    rcases phase with ⟨up, idle, fresh, rfl, rfl⟩ | ⟨setup, free, few, place, rfl, rfl⟩
    · have live : x.live = true := by rcases up with e | e <;> simp [Circuit.live, e]
      have other : x.state ≠ .training := by rcases up with e | e <;> simp [e]
      obtain ⟨y, v, begins, lane⟩ := (State.peerFailed_upPhase clear circuit position up i).2 idle held (by omega) out room
      obtain ⟨after, state, lanes, proposes, seeks⟩ := begins
      rw [byte] at proposes
      rw [State.takeLaneFail_of known origin live position held current]
      exact ⟨_, y, rfl, after, state.trans (Circuit.state_repairing up), fun _ => (lanes i out).trans lane,
        fun setup => absurd setup other, proposes, seeks⟩
    · have live : x.live = true := by simp [Circuit.live, setup]
      obtain ⟨y, v, begins, lane⟩ := State.peerFailed_setup clear circuit position setup origin free few place out room
      obtain ⟨after, state, lanes, proposes, seeks⟩ := begins
      have own := (lanes i out).trans lane
      rw [byte] at proposes
      rw [State.takeLaneFail_of known origin live position held current]
      exact ⟨_, y, rfl, after, state.trans setup, fun other => absurd setup other,
        fun _ => by rw [own]; exact ⟨rfl, rfl, rfl, rfl, rfl⟩, proposes, seeks⟩

end Sys2Proof.Machine
end

section
/-! SUPPORT. Sys2Proof/Proofs/Exhaust.lean: a repair that is exhausted narrows its circuit away from the position, or begins
a close (R120, R121, R40). -/

namespace Sys2Proof.Machine

open Sys2Proof

/-! ### Positions changed one at a time -/

/-- A position changed by `f` changes its circuit and no other field. -/
theorem State.modPosition_of {s : State} {c : SlotId} {x : Circuit} (hx : s.circuit c = some x) (n : Nat)
    (f : Position → Position) : ∃ sl, s.modPosition c n f = { s with slots := sl }
      ∧ (sl.get c).circuit = some { x with positions := x.positions.modify n f } := by
  have circuit := State.circuit_modPosition s c c n f
  obtain ⟨sl, form⟩ : ∃ sl, s.modPosition c n f = { s with slots := sl } := s.modCircuit_eq c _
  rw [if_pos rfl, hx, form] at circuit
  exact ⟨sl, form, circuit⟩

/-- R25: the width stays where no position is dropped. -/
theorem Circuit.width_modify (x : Circuit) (n : Nat) {f : Position → Position} (keeps : ∀ q, (f q).dropped = q.dropped) :
    Circuit.width { x with positions := x.positions.modify n f } = x.width := by
  rw [Circuit.width_eq_count, Circuit.width_eq_count]
  exact congrArg (List.count false) (List.map_modify_of_eq keeps x.positions n)

/-! ### The current lane of a dropped position (R15, R121) -/

/-- What `t` is where, from `s`, the current lane of a dropped position has left, where there is one. -/
structure State.CurrentGone (s t : State) (current : Option LaneId) : Prop where
  own : ∀ i, current = some i → (t.lane i).state = .quarantined ∧ (t.lane i).place = none
    ∧ ((s.lane i).failure = none → (t.lane i).peerFence = true)
    ∧ ∀ w, (s.lane i).failure = some w → (t.lane i).localFence = true
  other : ∀ j, current ≠ some j → t.lane j = s.lane j
  alone : s.LeavesAlone t
  marks : t.scratch = s.scratch
  placed : t.placed = s.placed ++ current.toList.filterMap fun i => (s.lane i).fenceMsg i
  pool : (∀ i, current = some i → i ∉ s.pool) → t.pool = s.pool

theorem State.currentGone {s : State} (v : s.scratch.overflow = false) (room : s.Room 1) (current : Option LaneId) :
    s.CurrentGone (s.leaveAll current.toList true .tail) current := by
  cases current with
  | none =>
    exact ⟨fun _ no => (nomatch no), fun _ _ => rfl, ⟨rfl, rfl, rfl, rfl, rfl, rfl⟩, rfl, (List.append_nil _).symm,
      fun _ => rfl⟩
  | some i =>
    obtain ⟨left, other, -, -, marks⟩ := s.replaced_leaveAll i v room .tail
    have alone := s.leaveAll_rest [i] true .tail
    refine ⟨fun j same => ?_, fun j ne => other j fun e => ne (e ▸ rfl), alone, marks, ?_, fun out => ?_⟩
    · obtain rfl := Option.some.inj same
      exact ⟨left.state, left.place, fun sound => (left.presumed sound).1, fun w why => (left.fenced w why).1⟩
    · cases why : (s.lane i).failure with
      | none => simpa [Lane.fenceMsg, why] using (left.presumed why).2
      | some w => simpa [Lane.fenceMsg, why] using (left.fenced w why).2
    · have out := out i rfl
      change (s.leaveAll [i] true .tail).pool = s.pool
      cases why : (s.lane i).failure with
      | none => rw [State.leaveAll_presumed why, State.pool_quarantine]; exact List.filter_ne_self out
      | some w =>
        obtain ⟨-, -, -, -, -, -, pool, -⟩ := s.setLocalFence_rest i (s.ownerTag i) (.failure w)
        rw [State.leaveAll_failed why, State.pool_quarantine, pool, List.filter_ne_self out]

/-! ### The position narrowed away (R121) -/

/-- R121: the near port's host is told of the narrowing, and the circuit is settled. -/
theorem State.settles_told {v : State} {c : SlotId} {n : Nat} {x : Circuit} (gone : v.circuit c = some (x.narrowed n))
    (m : Notice) :
    v.NoticeAlone ((if x.everUp = true then v.notify x.near m else v).settle c)
    ∧ (∃ y, ((if x.everUp = true then v.notify x.near m else v).settle c).circuit c = some y
      ∧ y.positions = (x.narrowed n).positions)
    ∧ (x.everUp = true → (v.port x.near).link ≠ .absent → (v.port x.near).notices.length < 14 → ∃ back,
      (((if x.everUp = true then v.notify x.near m else v).settle c).port x.near).notices
        = (v.port x.near).notices ++ m :: back) := by
  have told : ∃ ps, (if x.everUp = true then v.notify x.near m else v) = { v with ports := ps } := by
    split
    · exact v.notify_eq _ _
    · exact ⟨v.ports, rfl⟩
  have first (up : x.everUp = true) (present : (v.port x.near).link ≠ .absent) :
      ((if x.everUp = true then v.notify x.near m else v).port x.near).notices
        = queueNotice (v.port x.near).notices m := by
    rw [if_pos up, State.port_notify, if_pos ⟨rfl, present⟩]
  obtain ⟨ps, form⟩ := told
  rw [form] at first ⊢
  obtain ⟨alone, circuit, notices⟩ := State.settle_keeps (s := { v with ports := ps }) gone
  refine ⟨alone, circuit, fun up present few => ?_⟩
  have first := first up present
  rw [queueNotice_of_lt _ (by omega)] at first
  rcases notices x.near with same | ⟨k, more⟩
  · exact ⟨[], same.trans first⟩
  · rw [first, queueNotice_of_lt _ (by rw [List.length_append, List.length_singleton]; omega)] at more
    exact ⟨[k], more.trans (by simp)⟩

theorem State.cleared_of_bare {s : State} {c : SlotId} {n : Nat} {q : Position} (bare : q.replacement = none) :
    s.cleared c n q = State.leaveAll { s.modPosition c n Position.narrowed with
      seeking := (s.modPosition c n Position.narrowed).seeking.filter fun cp => decide (cp ≠ (c, n)) }
      q.current.toList true .tail := by
  unfold State.cleared
  rw [bare]
  rfl

/-- What `t` is where, from `s`, the position `n` of the circuit `x` has been narrowed away; it stood as `q`, and it named
no replacement lane. -/
structure State.NarrowedAway (s t : State) (c : SlotId) (n : Nat) (x : Circuit) (q : Position) : Prop where
  circuit : ∃ y, t.circuit c = some y ∧ y.width = x.width - 1 ∧ y.positions[n]? = some q.narrowed
  own : ∀ i, q.current = some i → (t.lane i).state = .quarantined ∧ (t.lane i).place = none
    ∧ ((s.lane i).failure = none → (t.lane i).peerFence = true)
    ∧ ∀ w, (s.lane i).failure = some w → (t.lane i).localFence = true
  other : ∀ j, q.current ≠ some j → t.lane j = s.lane j
  placed : t.placed = s.placed
    ++ .amend x.tag (byteOf n) none :: q.current.toList.filterMap fun i => (s.lane i).fenceMsg i
  pool : (∀ i, q.current = some i → i ∉ s.pool) → t.pool = s.pool
  seeking : t.seeking = s.seeking.filter fun cp => decide (cp ≠ (c, n))
  queue : t.queue = s.queue
  marks : t.scratch = s.scratch
  notices : x.everUp = true → (s.port x.near).link ≠ .absent → (s.port x.near).notices.length < 14 →
    ∃ back, (t.port x.near).notices = (s.port x.near).notices ++ .circuitNarrowed c (x.width - 1) :: back

section Exhausted

variable {s : State} {c : SlotId} {n : Nat} {x : Circuit} {q : Position}

/-- R120, R121: a circuit that is wide enough narrows. -/
theorem State.narrowedAway_exhaust (hx : s.circuit c = some x) (hq : x.positions[n]? = some q)
    (here : q.dropped = false) (bare : q.replacement = none) (wide : x.minWidth ≤ x.width - 1)
    (v : s.scratch.overflow = false) (room : s.Room 2) : s.NarrowedAway (s.exhaust c n) c n x q := by
  have form : s.exhaust c n = (s.send (.amend x.tag (byteOf n) none)).dropPosition c n := by
    rw [State.exhaust, hx]
    exact if_pos wide
  have marks := s.send_scratch (.amend x.tag (byteOf n) none) room.lt
  have placed := s.placed_send (.amend x.tag (byteOf n) none) room.1 v room.lt
  have room := room.send (.amend x.tag (byteOf n) none)
  have hu : (s.send (.amend x.tag (byteOf n) none)).circuit c = some x := by rw [State.send_circuit]; exact hx
  have lane (j) : (s.send (.amend x.tag (byteOf n) none)).lane j = s.lane j := State.send_lane ..
  have port := s.port_send (.amend x.tag (byteOf n) none) x.near
  have pool : (s.send (.amend x.tag (byteOf n) none)).pool = s.pool := State.send_pool ..
  have queue : (s.send (.amend x.tag (byteOf n) none)).queue = s.queue := State.send_queue ..
  have seeking : (s.send (.amend x.tag (byteOf n) none)).seeking = s.seeking := State.send_seeking ..
  generalize s.send (.amend x.tag (byteOf n) none) = u at *
  obtain ⟨sl, same, circuit⟩ := State.modPosition_of hu n Position.narrowed
  have cleared := State.cleared_of_bare (s := u) (c := c) (n := n) bare
  rw [same] at cleared
  have left := State.currentGone
    (s := { u with slots := sl, seeking := u.seeking.filter fun cp => decide (cp ≠ (c, n)) })
    (by rw [← v, ← marks]) room q.current
  rw [← cleared] at left
  obtain ⟨own, other, ⟨slots, vqueue, vseeking, vports, -⟩, vmarks, vplaced, vpool⟩ := left
  have gone : (u.cleared c n q).circuit c = some (x.narrowed n) := by
    rw [State.circuit, slots]
    exact circuit
  rw [form, State.dropPosition_of hu hq here gone]
  obtain ⟨⟨-, -, -, tqueue, tseeking, -, tpool, -, -, -, tmarks, tplaced, tlane⟩, ⟨y, hy, positions⟩, notices⟩ :=
    State.settles_told gone (.circuitNarrowed c (x.width - 1))
  have before (j) : State.lane { u with slots := sl, seeking := u.seeking.filter fun cp => decide (cp ≠ (c, n)) } j
      = s.lane j := lane j
  simp only [before] at own other vplaced
  have port' : (u.cleared c n q).port x.near = s.port x.near := (congrArg (fun ps => ps.get x.near) vports).trans port
  rw [port'] at notices
  refine ⟨⟨y, hy, ?_, ?_⟩, fun i h => ?_, fun j ne => (tlane j).trans (other j ne), ?_, fun out => ?_, ?_, ?_, ?_, notices⟩
  · rw [← Circuit.width_narrowed hq here, Circuit.width, positions, ← Circuit.width]
  · rw [positions]
    change (x.positions.modify _ _)[_]? = _
    simp [hq]
  · rw [tlane]
    exact own i h
  · rw [tplaced, vplaced]
    change u.placed ++ _ = _
    rw [placed, List.append_assoc]
    rfl
  · exact tpool.trans ((vpool fun i h => by rw [← pool] at out; exact out i h).trans pool)
  · rw [← seeking]
    exact tseeking.trans vseeking
  · exact tqueue.trans (vqueue.trans queue)
  · exact tmarks.trans (vmarks.trans marks)

/-! ### The close (R40) -/

/-- R40: lanes outside the pool leave it as it is when they are released. -/
theorem State.pool_foldl_release (l : List LaneId) (s : State) (out : ∀ i ∈ l, i ∉ s.pool) :
    (l.foldl (fun s i => s.moveLane i .releasing) s).pool = s.pool := by
  induction l generalizing s with
  | nil => rfl
  | cons a l ih =>
    have same : (s.moveLane a .releasing).pool = s.pool :=
      (State.pool_moveLane ..).trans (List.filter_ne_self (out a List.mem_cons_self))
    rw [List.foldl_cons, ih _ fun i m => by rw [same]; exact out i (List.mem_cons_of_mem a m), same]

/-- What `t` is where, from `s`, a close of the circuit `x` has begun, with room for its message alone. -/
structure State.Closes (s t : State) (c : SlotId) (x : Circuit) (why : CloseReason) : Prop where
  circuit : t.circuit c = some (x.closed why)
  lanes : ∀ i ∈ x.lanes, (t.lane i).state = .releasing ∧ (t.lane i).place = (s.lane i).place
  placed : t.placed = s.placed ++ [.close x.tag why]
  pool : (∀ i ∈ x.lanes, i ∉ s.pool) → t.pool = s.pool
  seeking : t.seeking = s.seeking.filter fun cp => decide (cp.1 ≠ c)
  queue : t.queue = s.queue
  marks : t.scratch = s.scratch

/-- R40, R120: a circuit that cannot be narrowed begins a close. -/
theorem State.closes_exhaust (hx : s.circuit c = some x) (going : x.state ≠ .closing) (narrow : x.width - 1 < x.minWidth)
    (v : s.scratch.overflow = false) (room : s.Room 1) (n : Nat) :
    s.Closes (s.exhaust c n) c x (if x.everUp then .noSpare else .training) := by
  have form : s.exhaust c n = s.beginClose c (if x.everUp then .noSpare else .training) := by
    rw [State.exhaust, hx]
    exact if_neg (Nat.not_le.mpr narrow)
  rw [form]
  generalize (if x.everUp then CloseReason.noSpare else .training) = why
  obtain ⟨ls, pool, dq, released, lanes, -, -⟩ := State.foldl_release x.lanes s
  have kept := State.pool_foldl_release x.lanes s
  rw [released] at kept
  let u : State := { State.setCircuit { s with lanes := ls, pool := pool, dwellQueue := dq } c (x.closed why) with
    seeking := s.seeking.filter fun cp => decide (cp.1 ≠ c) }
  have form : s.beginClose c why = u.send (.close x.tag why) := by
    rw [State.beginClose, hx]
    refine (if_neg going).trans ?_
    rw [released]
    rfl
  have room : u.Room 1 := room
  rw [form]
  refine ⟨?_, fun i m => ?_, State.placed_send u _ room.1 v room.lt, fun out => ?_, State.send_seeking ..,
    State.send_queue .., State.send_scratch u _ room.lt⟩
  · rw [State.send_circuit]
    exact State.circuit_setCircuit_self { s with lanes := ls, pool := pool, dwellQueue := dq } c _
  · rw [State.send_lane]
    obtain ⟨state, place, -⟩ := lanes i m
    exact ⟨state, place⟩
  · rw [State.send_pool]
    exact kept out

end Exhausted

/-- A close that has begun, seen from before and after it: `r` stands with the same messages and places, and `t` shows the
circuit, the messages, the seeking list, and the lanes but for what is measured. -/
theorem State.Closes.begun {r s u t : State} {c : SlotId} {x z : Circuit} {why : CloseReason} (h : s.Closes u c z why)
    (tag : z.tag = x.tag) (named : z.lanes = x.lanes) (placed : s.placed = r.placed)
    (place : ∀ i ∈ x.lanes, (s.lane i).place = (r.lane i).place) (circuit : t.circuit c = u.circuit c)
    (lane : ∀ i, (t.lane i).state = (u.lane i).state ∧ (t.lane i).place = (u.lane i).place)
    (seeking : t.seeking = u.seeking) (placed' : t.placed = u.placed) : r.CloseBegun t c x why := by
  refine ⟨⟨_, circuit.trans h.circuit, rfl, rfl, tag, (z.lanes_closed why).trans named⟩, fun i m => ?_, fun cp m => ?_,
    [], [], ?_⟩
  · obtain ⟨state, same⟩ := h.lanes i (named ▸ m)
    exact ⟨(lane i).1.trans state, (lane i).2.trans (same.trans (place i m))⟩
  · rw [seeking, h.seeking] at m
    exact of_decide_eq_true (List.mem_filter.mp m).2
  · rw [placed', h.placed, placed, tag, List.append_nil]

end Sys2Proof.Machine
end

section
/-! SUPPORT. Sys2Proof/Proofs/SeekExhausts.lean: the sweep tick at which a SEEKING position runs out of patience (R97, R115,
R120, R121). -/

namespace Sys2Proof.Machine

open Sys2Proof

/-! ### The position out of patience (R115) -/

/-- R115: a position whose patience has run out. -/
def Position.impatient (q : Position) : Position := { q with patience := none }

/-- R115: a circuit whose position `n` has run out of patience. -/
def Circuit.impatient (x : Circuit) (n : Nat) : Circuit := { x with positions := x.positions.modify n Position.impatient }

theorem Circuit.width_impatient (x : Circuit) (n : Nat) : (x.impatient n).width = x.width :=
  x.width_modify n fun _ => rfl

theorem Circuit.lanes_impatient (x : Circuit) (n : Nat) : (x.impatient n).lanes = x.lanes := by
  rw [Circuit.lanes, Circuit.lanes, List.flatMap_def, List.flatMap_def]
  exact congrArg List.flatten (List.map_modify_of_eq (f := Position.impatient) (fun _ => rfl) x.positions n)

/-- R97, R115: a tick up to the exhaustion of the position that sought alone. -/
def State.soughtInVain (s : State) (c : SlotId) (n : Nat) : State :=
  { s.sweepBegin.modPosition c n Position.impatient with seeking := [] }

section Tick

variable {s : State} {c : SlotId} {n : Nat} {x : Circuit} {p : Position}

/-- What `u` is where, from `s`, a tick has reached the exhaustion of position `n` of the circuit `x`, and nobody else
waits. -/
structure State.SeeksInVain (s u : State) (c : SlotId) (n : Nat) (x : Circuit) : Prop where
  circuit : u.circuit c = some (x.impatient n)
  lane : ∀ i, u.lane i = s.lane i
  port : ∀ h, u.port h = s.port h
  placed : u.placed = s.placed
  nobody : u.NobodyWaits
  marks : u.Unmarked
  room : u.Room 2

theorem State.seeksInVain (hx : s.circuit c = some x) (waiting : ∀ e ∈ s.queue, e.slot ≠ none) (clear : s.Unmarked)
    (can : s.CanSend) : s.SeeksInVain (s.soughtInVain c n) c n x := by
  obtain ⟨sl, form, circuit⟩ := State.modPosition_of (s := s.sweepBegin) hx n Position.impatient
  obtain ⟨up, empty, -⟩ := can
  unfold State.soughtInVain
  rw [form]
  refine ⟨circuit, fun _ => rfl, fun _ => rfl, rfl, ⟨rfl, waiting⟩, clear, up, ?_⟩
  change s.sendQueue.length + 2 ≤ _
  rw [empty]
  decide

/-- R12, R97: where no lane is fenced locally, a tick reaches the seeking list with its clock alone moved. -/
theorem State.sweepReleased_of_unfenced (unfenced : ∀ i, (s.lane i).localFence = false) (clear : s.Unmarked) :
    s.sweepReleased = s.sweepBegin := by
  have aged : s.sweepBegin.countAges = s.sweepBegin := State.countAges_of_unfenced unfenced
  have marks : s.sweepBegin.scratch.grown = false := congrArg Scratch.grown clear
  rw [State.sweepReleased, aged]
  exact if_neg (by simp [marks])

/-- R97, R115: a tick at which the one SEEKING position runs out of patience. -/
theorem State.swept_of_sole_seeker (unfenced : ∀ i, (s.lane i).localFence = false) (clear : s.Unmarked)
    (seeking : s.seeking = [(c, n)]) (hx : s.circuit c = some x) (hp : x.positions[n]? = some p)
    (last : p.patience = some 1) :
    s.exhaustsNext (c, n) = true ∧ s.swept = (((s.soughtInVain c n).exhaust c n).countPatience.sweep).finish := by
  have sole : s.sweepBegin.seeking = [(c, n)] := seeking
  have position : s.sweepBegin.position c n = some p := (State.position_eq (s := s.sweepBegin) hx n).trans hp
  have released := State.sweepReleased_of_unfenced unfenced clear
  constructor
  · have first : s.sweepBegin.seekBefore (c, n) = s.sweepBegin := by
      rw [State.seekBefore, sole]
      simp
    simp [State.exhaustsNext, released, first, sole, position, last]
  · have counted : s.sweepBegin.countSeeking = (s.soughtInVain c n).exhaust c n := by
      have out : (s.sweepBegin.seeking.filter fun o => decide (o ≠ (c, n))) = [] := by simp [sole]
      have alone : s.sweepBegin.countSeeking = s.sweepBegin.countSeek (c, n) := by
        rw [State.countSeeking, sole]
        rfl
      rw [alone]
      simp only [State.countSeek, sole, List.mem_singleton, if_true, position, last, le_refl]
      rw [← sole, out]
      rfl
    rw [State.swept, released, counted]

/-- What `t` shows of `u` where measurements alone have been asked for, granted and missed. -/
structure State.OnlyMeasures (u t : State) : Prop where
  circuit : ∀ d, t.circuit d = u.circuit d
  seeking : t.seeking = u.seeking
  placed : t.placed = u.placed
  ports : t.ports = u.ports
  lane : ∀ j, ∃ m f a, t.lane j = { u.lane j with missed := m, preset := f, applied := a }

/-- R61, R97, R98: the rest of a tick while nobody waits. -/
theorem State.NobodyWaits.tick_measures {u : State} (nobody : u.NobodyWaits) (clear : u.Unmarked) :
    u.OnlyMeasures u.countPatience.sweep.finish := by
  obtain ⟨ls, q, g, r, k, swept, missed⟩ := u.sweep_eq
  rw [State.countPatience_of_nobody nobody.2]
  obtain ⟨waits, loss⟩ := nobody.sweep (by rw [clear])
  obtain ⟨ls', q', us, ended, granted⟩ := u.sweep.ite_grant_eq
  rw [State.finish_of_quiet u.sweep waits loss]
  change u.OnlyMeasures (if u.sweep.scratch.grant then u.sweep.grant else u.sweep).unmark
  rw [ended, swept]
  refine ⟨fun _ => rfl, rfl, rfl, rfl, fun j => ?_⟩
  obtain ⟨f, a, own, -⟩ := granted j
  obtain ⟨m, hm⟩ := missed j
  have lane : u.sweep.lane j = ls.get j := by rw [swept]; rfl
  exact ⟨m, f, a, own.trans (by rw [lane, hm])⟩

/-- R97, R120, R121: the tick narrows a circuit that is wide enough, and measures. -/
theorem State.SeeksInVain.narrows {u : State} (h : s.SeeksInVain u c n x) (hp : x.positions[n]? = some p)
    (here : p.dropped = false) (bare : p.replacement = none) (wide : x.minWidth ≤ x.width - 1) :
    u.NarrowedAway (u.exhaust c n) c n (x.impatient n) p.impatient
      ∧ (u.exhaust c n).OnlyMeasures (u.exhaust c n).countPatience.sweep.finish := by
  have position : (x.impatient n).positions[n]? = some p.impatient := by simp [Circuit.impatient, hp]
  have away := State.narrowedAway_exhaust h.circuit position here bare (by rw [x.width_impatient]; exact wide)
    (by rw [h.marks]) h.room
  refine ⟨away, State.NobodyWaits.tick_measures ⟨?_, ?_⟩ (away.marks.trans h.marks)⟩
  · rw [away.seeking, h.nobody.1]
    rfl
  · rw [away.queue]
    exact h.nobody.2

/-- R97, R40, R120: the tick begins the close of any other circuit, and measures. -/
theorem State.SeeksInVain.closes {u : State} (h : s.SeeksInVain u c n x) (going : x.state ≠ .closing)
    (narrow : x.width - 1 < x.minWidth) :
    u.Closes (u.exhaust c n) c (x.impatient n) (if x.everUp then .noSpare else .training)
      ∧ (u.exhaust c n).OnlyMeasures (u.exhaust c n).countPatience.sweep.finish := by
  have closes := State.closes_exhaust h.circuit going (by rw [x.width_impatient]; exact narrow) (by rw [h.marks])
    (h.room.mono (by decide)) n
  refine ⟨closes, State.NobodyWaits.tick_measures ⟨?_, ?_⟩ (closes.marks.trans h.marks)⟩
  · rw [closes.seeking, h.nobody.1]
    rfl
  · rw [closes.queue]
    exact h.nobody.2

end Tick

/-- Settles O60: the tick exhausts the position's repair, and the rest of it only measures. -/
theorem seekExhausts : Obligations.SeekExhausts := by
  intro s ms c b x p timer seeking hx state origin hp repair last here bare waiting clear can unfenced
  have runs : s.sweepTimer.runs = true := by rw [timer]; rfl
  obtain ⟨next, form⟩ := State.swept_of_sole_seeker unfenced clear seeking hx hp last
  have tick : exec .sweepTick s = .next s.swept := congrArg Host.Outcome.next (if_pos ⟨runs, rfl⟩)
  have named : exec (.seekExhausted c b.toNat) s = .next s.swept := congrArg Host.Outcome.next (if_pos ⟨runs, next⟩)
  have vain : s.SeeksInVain (s.soughtInVain c b.toNat) c b.toNat x := State.seeksInVain hx waiting clear can
  rw [form] at named tick
  generalize s.soughtInVain c b.toNat = u at *
  refine ⟨fun wide => ?_, fun narrow => ?_⟩
  · obtain ⟨away, circuits, seeks, messages, ports, lanes⟩ := vain.narrows hp here bare wide
    obtain ⟨y, hy, narrower, dropped⟩ := away.circuit
    refine ⟨_, y, p.current.toList.filterMap fun i => (s.lane i).fenceMsg i, named, tick, ?_, (circuits c).trans hy,
      by rw [narrower, x.width_impatient], dropped.trans ?_, messages.trans (away.placed.trans ?_),
      fun none => by simp [none], fun i current => ?_, fun up present few => ?_⟩
    · rw [seeks, away.seeking, vain.nobody.1]
      rfl
    · simp [Position.narrowed, Position.endRepair, Position.impatient, bare]
    · simp only [vain.lane, vain.placed, byteOf_of_toNat (b := b) rfl]
      rfl
    · obtain ⟨gone, place, presumed, fenced⟩ := away.own i current
      obtain ⟨m, f, a, own⟩ := lanes i
      rw [vain.lane] at presumed fenced
      rw [own]
      refine ⟨gone, place, State.boundTo_of_other (by rw [own, gone]; decide), fun sound => ⟨presumed sound, ?_⟩,
        fun w why => ⟨fenced w why, ?_⟩⟩
      · simp [current, Lane.fenceMsg, sound]
      · simp [current, Lane.fenceMsg, why]
    · have told := away.notices
      simp only [vain.port, x.width_impatient] at told
      rw [State.port, ports]
      exact told up present few
  · have going : x.state ≠ .closing := by rcases state with e | e <;> simp [e]
    obtain ⟨closes, circuits, seeks, messages, -, lanes⟩ := vain.closes going narrow
    refine ⟨_, named, tick, closes.begun rfl (x.lanes_impatient b.toNat) vain.placed (fun i _ => by rw [vain.lane])
      (circuits c) (fun i => ?_) seeks messages⟩
    obtain ⟨m, f, a, own⟩ := lanes i
    rw [own]
    exact ⟨rfl, rfl⟩

end Sys2Proof.Machine
end

section
/-! SUPPORT. Sys2Proof/Proofs/AmendReply.lean: AMEND_REPLY, by its result and by what the position still names (R114, R117,
R120). -/

namespace Sys2Proof.Machine

open Sys2Proof

/-! ### AMEND_REPLY that is discarded or taken (R44, R117) -/

section Taken

variable {s : State} {g : Tag} {c : SlotId} {x : Circuit} {b : Byte} {p : Position}

theorem State.takeAmendReply_discards (known : s.matchTag g = some (c, x))
    (w : x.role = .answer ∨ x.live = false ∨ ∀ p, x.positions[b.toNat]? = some p → p.repair ≠ .proposed)
    (why : AmendResult) : s.takeAmendReply g b why = s := by
  rw [State.takeAmendReply, known]
  dsimp only
  split
  · rfl
  · rename_i serves
    have w := (w.resolve_left fun e => serves (.inr e)).resolve_left fun e => serves (.inl e)
    rw [State.position_eq (State.circuit_of_matchTag known)]
    cases position : x.positions[b.toNat]? with
    | none => rfl
    | some p => exact if_neg (w p position)

theorem State.takeAmendReply_of (known : s.matchTag g = some (c, x)) (origin : x.role = .origin) (live : x.live = true)
    (position : x.positions[b.toNat]? = some p) (proposed : p.repair = .proposed) (why : AmendResult) :
    s.takeAmendReply g b why = s.amendReplied c x b.toNat p.replacement why := by
  simp [State.takeAmendReply, known, origin, live, State.position_eq (State.circuit_of_matchTag known), position, proposed]

end Taken

/-! ### The spare that is accepted (R82, R117) -/

/-- R82: a run that begins in a message's event, at its end: the grant rule may have set the lane's equalizer. -/
theorem State.finish_startRun {s : State} (marks : s.scratch = { received := true }) (i : LaneId) :
    (s.startRun i).finish.slots = s.slots
    ∧ ∃ a f, (s.startRun i).finish.lane i = { (s.lane i).started s.params with preset := a, applied := f } := by
  obtain ⟨ls, q, g, form, lanes⟩ := s.startRun_eq i
  rw [form, State.finish_of_unserved _ (by rw [marks]) (by rw [marks]) (by rw [marks])]
  obtain ⟨ls', q', us, ended, granted⟩ := State.ite_grant_eq { s with
    lanes := ls, pool := s.pool.filter fun j => decide (j ≠ i), dwellQueue := q,
    scratch := { s.scratch with grant := g } }
  rw [ended]
  obtain ⟨a, f, own, -⟩ := granted i
  exact ⟨rfl, a, f, own.trans (by rw [State.lane, lanes, if_pos rfl])⟩

/-- R117: the record of a spare that has become its position's current lane. -/
def Lane.asCurrent (l : Lane) : Lane := { l with place := l.place.map fun pl => { pl with role := .current } }

section Accepted

variable {r : State} {c : SlotId} {n : Nat} {x : Circuit}

/-- R117: the accepted spare trains as the replacement lane in the UP phase. -/
theorem State.spareAccepted_upPhase (clear : r.Unmarked) (hx : r.circuit c = some x)
    (up : x.state = .up ∨ x.state = .repairing) (i : LaneId) :
    (r.received.spareAccepted c x n i).finish.circuit c = some { x with
      positions := x.positions.modify n fun p => { p with repair := .replacing } }
    ∧ ∃ a f, (r.received.spareAccepted c x n i).finish.lane i
      = { (r.lane i).started r.params with preset := a, applied := f } := by
  have form : r.received.spareAccepted c x n i
      = (r.received.modPosition c n fun p => { p with repair := .replacing }).startRun i :=
    if_pos (by simpa [Circuit.upPhase] using up)
  obtain ⟨sl, same, circuit⟩ := State.modPosition_of (s := r.received) hx n fun p => { p with repair := .replacing }
  obtain ⟨slots, own⟩ := State.finish_startRun (s := { r.received with slots := sl }) (State.scratch_received clear) i
  rw [form, same]
  exact ⟨by rw [State.circuit, slots]; exact circuit, own⟩

/-- R117: the accepted spare trains as the current lane in the setup phase. -/
theorem State.spareAccepted_setup (clear : r.Unmarked) (hx : r.circuit c = some x) (setup : x.state = .training)
    (i : LaneId) :
    (r.received.spareAccepted c x n i).finish.circuit c = some { x with
      positions := x.positions.modify n fun p => { p with repair := .replacing, current := some i, replacement := none } }
    ∧ ∃ a f, (r.received.spareAccepted c x n i).finish.lane i
      = { (r.lane i).asCurrent.started r.params with preset := a, applied := f } := by
  have form : r.received.spareAccepted c x n i = ((r.received.modPosition c n fun p =>
      { p with repair := .replacing, current := some i, replacement := none }).modLane i Lane.asCurrent).startRun i :=
    if_neg (by simp [Circuit.upPhase, setup])
  obtain ⟨sl, same, circuit⟩ := State.modPosition_of (s := r.received) hx n fun p =>
    { p with repair := .replacing, current := some i, replacement := none }
  obtain ⟨slots, own⟩ := State.finish_startRun (s := State.modLane { r.received with slots := sl } i Lane.asCurrent)
    (State.scratch_received clear) i
  rw [State.lane_modLane_self] at own
  rw [form, same]
  exact ⟨by rw [State.circuit, slots]; exact circuit, own⟩

end Accepted

/-! ### The spare that returns to the pool (R117) -/

theorem Circuit.width_without (x : Circuit) (pl : Place) : (x.without pl).width = x.width :=
  x.width_modify pl.position fun q => by simp

/-- R26: the lanes of a circuit are those it names when a position has given up its replacement lane, and that lane. -/
theorem Circuit.lanes_perm_without {x : Circuit} {n : Nat} {p : Position} (hp : x.positions[n]? = some p) (c : SlotId) :
    x.lanes.Perm (p.replacement.toList ++ (x.without ⟨c, .replacement, n⟩).lanes) := by
  obtain ⟨lt, at_⟩ := List.getElem?_eq_some_iff.mp hp
  have split : x.positions = x.positions.take n ++ p :: x.positions.drop (n + 1) := by
    rw [← at_, ← List.drop_eq_getElem_cons lt, List.take_append_drop]
  have split' : (x.without ⟨c, .replacement, n⟩).positions
      = x.positions.take n ++ p.without .replacement :: x.positions.drop (n + 1) := by
    rw [← at_]
    exact List.modify_eq_take_cons_drop lt
  have own : (p.without .replacement).lanes = p.current.toList := List.append_nil _
  rw [Circuit.lanes, Circuit.lanes, split', congrArg (List.flatMap Position.lanes) split]
  simp only [List.flatMap_append, List.flatMap_cons, own]
  rw [Position.lanes]
  generalize (x.positions.take n).flatMap Position.lanes = front
  generalize (x.positions.drop (n + 1)).flatMap Position.lanes = back
  rw [List.perm_iff_count]
  intro i
  simp only [List.count_append]
  omega

theorem Circuit.mem_lanes_of_current {x : Circuit} {n : Nat} {q : Position} {o : LaneId} (hq : x.positions[n]? = some q)
    (current : q.current = some o) : o ∈ x.lanes :=
  List.mem_flatMap.mpr ⟨q, List.mem_of_getElem? hq, by simp [Position.lanes, current]⟩

/-- R117: the end of the pool at which a spare joins that the answer refuses. -/
def spareEnd : AmendResult → PoolEnd
  | .laneUnavailable => .tail
  | _ => .head

/-- R117: an answer that accepts no spare returns it, and a pick or the exhaustion follows. -/
theorem State.amendReplied_of (s : State) (c : SlotId) (x : Circuit) (n : Nat) {spare : Option LaneId} {why : AmendResult}
    (refused : why ≠ .ok ∨ spare = none) : s.amendReplied c x n spare why =
      if why = .noCircuit then (s.returnSpare (spareEnd why) spare).exhaust c n
      else (s.returnSpare (spareEnd why) spare).pick c n := by
  cases why with
  | ok =>
    obtain rfl := refused.resolve_left (· rfl)
    rfl
  | laneConflict => cases spare <;> rfl
  | laneUnavailable => cases spare <;> rfl
  | noCircuit => cases spare <;> rfl

/-- R117: `pool` is the pool of `r` behind the return of the spare that position `n` names, if it names one. -/
abbrev State.SpareFits (r : State) (c : SlotId) (n : Nat) (p : Position) (e : PoolEnd) (pool : List LaneId) : Prop :=
  p.replacement = none ∧ pool = r.pool
    ∨ ∃ i, p.replacement = some i ∧ (r.lane i).place = some ⟨c, .replacement, n⟩ ∧ (r.lane i).state = .claimed
      ∧ (r.lane i).Clean ∧ pool = poolWith e r.pool [i]

/-- What `u` is where, from `r`, the spare that position `n` of the circuit `x` names has returned on a message. -/
structure State.SpareReturned (r u : State) (c : SlotId) (n : Nat) (x : Circuit) (p : Position) (l : List LaneId) :
    Prop where
  circuit : u.circuit c = some (x.without ⟨c, .replacement, n⟩)
  pool : u.pool = l
  lane : ∀ j, p.replacement ≠ some j → u.lane j = r.lane j
  freed : ∀ i, p.replacement = some i → u.lane i = (r.lane i).freed
  params : u.params = r.params
  placed : u.placed = r.placed
  nobody : u.NobodyWaits
  form : u.PoolMatches
  room : u.Room 2
  marks : ∃ g, u.scratch = { received := true, grown := g } ∧ (l = [] → g = false)

section Returned

variable {r u : State} {c : SlotId} {n : Nat} {x : Circuit} {p : Position} {pool : List LaneId}

theorem State.spareReturned (clear : r.Unmarked) (hx : r.circuit c = some x) (hp : x.positions[n]? = some p)
    (nobody : r.NobodyWaits) (form : r.PoolMatches) (room : r.Room 2) {e : PoolEnd} (fits : r.SpareFits c n p e pool) :
    r.SpareReturned (r.received.returnSpare e p.replacement) c n x p pool := by
  have marks := State.scratch_received clear
  rcases fits with ⟨none, rfl⟩ | ⟨i, spare, place, claimed, clean, rfl⟩
  · have same : x.without ⟨c, .replacement, n⟩ = x := by
      have stays : p.without .replacement = p := by rw [Position.without, ← none]
      have kept : x.positions.modify n (Position.without .replacement) = x.positions := by
        refine List.ext_getElem? fun m => ?_
        rw [List.getElem?_modify]
        by_cases e : n = m
        · subst e
          simp [hp, stays]
        · simp [e]
      rw [Circuit.without, kept]
    rw [none]
    exact ⟨hx.trans (by rw [same]), rfl, fun _ _ => rfl, fun _ no => (nomatch none.symm.trans no), rfl, rfl, nobody, form,
      room, false, marks, fun _ => rfl⟩
  · have out : i ∉ r.pool := fun m => nomatch claimed.symm.trans ((form.2 i).mp m)
    have fills : r.received.Fills i ⟨c, .replacement, n⟩ x p := ⟨place, hx, hp⟩
    have circuit := fills.circuit_unname
    obtain ⟨-, params, trunk, queue, seeking, -, pool, -, -, -, -, sends, -, marks', placed, lane⟩ :=
      r.received.unname_rest i
    have form' : (r.received.unname i).PoolMatches :=
      State.PoolMatches.congr form pool fun j => congrArg Lane.state (lane j)
    have returned : r.received.returnSpare e p.replacement = (r.received.unname i).leaveAll [i] false e := by
      rw [spare]
      rfl
    rw [returned]
    generalize r.received.unname i = v at *
    have freed := State.freedAll_leaveAll (s := v) (l := [i]) (List.nodup_singleton i)
      (fun j m => by rw [List.mem_singleton.mp m, pool]; exact out)
      (fun j m => by rw [List.mem_singleton.mp m, lane]; exact clean)
      (fun j m => by rw [List.mem_singleton.mp m, lane]; exact fun no => nomatch claimed.symm.trans no) e
    obtain ⟨slots, queue', seeking', -, params', trunk'⟩ := v.leaveAll_rest [i] false e
    obtain ⟨g, grown⟩ := freed.marks
    refine ⟨by rw [State.circuit, slots]; exact circuit, by rw [freed.pool, pool]; rfl, fun j ne => ?_, fun j same => ?_,
      params'.trans params, freed.placed.trans placed, nobody.congr (queue'.trans queue) (seeking'.trans seeking),
      kept_poolMatches.leaveAll form' [i] false e, ⟨(trunk'.trans trunk).trans room.1, ?_⟩, g,
      by rw [grown, marks', marks], fun empty => ?_⟩
    · rw [freed.lane, if_neg fun m => ne (by rw [spare, List.mem_singleton.mp m]), lane]
      rfl
    · obtain rfl := Option.some.inj (spare.symm.trans same)
      rw [freed.lane, if_pos List.mem_cons_self, lane]
      rfl
    · rw [freed.sends, sends]
      exact room.2
    · cases e <;> simp [poolWith] at empty

/-- R26: the lanes the circuit names behind the return are not in the pool, and stand as before. -/
theorem State.SpareReturned.held (h : r.SpareReturned u c n x p pool) (hp : x.positions[n]? = some p) (nd : x.lanes.Nodup)
    (unfree : ∀ j ∈ x.lanes, (r.lane j).state ≠ .free) : ∀ j ∈ (x.without ⟨c, .replacement, n⟩).lanes,
      j ∉ u.pool ∧ u.lane j = r.lane j := by
  intro j m
  have perm := Circuit.lanes_perm_without hp c
  have other : p.replacement ≠ some j := fun same =>
    (List.nodup_append'.mp (perm.nodup_iff.mp nd)).2.2 (by simp [same]) m
  have lane := h.lane j other
  refine ⟨fun pooled => unfree j (perm.mem_iff.mpr (List.mem_append_right _ m)) ?_, lane⟩
  rw [← lane]
  exact (h.form.2 j).mp pooled

/-! ### The pick and the exhaustion that follow (R114, R115, R120) -/

/-- R114: a pick that takes the pool's head leaves the waiting and every other lane alone. -/
theorem State.proposes_pick {s : State} {q : Position} (hx : s.circuit c = some x) (hq : x.positions[n]? = some q)
    (live : x.live = true) (left : q.attempts < 3) {j : LaneId} {rest : List LaneId} (e : s.pool = j :: rest) :
    (s.pick c n).queue = s.queue ∧ (s.pick c n).seeking = s.seeking ∧ ∀ k, k ≠ j → (s.pick c n).lane k = s.lane k := by
  rw [State.pick_of hx hq live left, e]
  dsimp only
  rw [State.propose_eq]
  refine ⟨by simp, by simp, fun k ne => ?_⟩
  simp [State.lane_takeLane, ne]

/-- R114, R115, R117: the pick behind the return, at the end of the event. -/
theorem State.SpareReturned.picks (h : r.SpareReturned u c n x p pool) (hp : x.positions[n]? = some p)
    (live : x.live = true) (few : p.attempts < 3) :
    r.Picked (u.pick c n).finish c n x (p.without .replacement) pool []
    ∧ ∀ i, p.replacement = some i → i ∈ (u.pick c n).finish.pool → ((u.pick c n).finish.lane i).state = .free
      ∧ ((u.pick c n).finish.lane i).place = none := by
  obtain ⟨circuit, hpool, -, freed, params, placed, nobody, form, room, g, marks, grows⟩ := h
  have position : (x.without ⟨c, .replacement, n⟩).positions[n]? = some (p.without .replacement) :=
    Circuit.getElem?_without (pl := ⟨c, .replacement, n⟩) hp
  have few' : (p.without .replacement).attempts < 3 := few
  have picked := State.picked_pick circuit position live few' form.1 (by rw [marks]) (room.mono (by decide))
  have frame := State.frame_pick circuit position live few' (room.mono (by decide))
  have form' : (u.pick c n).PoolMatches := kept_poolMatches.pick form c n
  have marks' := frame.scratch.trans marks
  rw [hpool] at picked
  have seen : r.Picked (u.pick c n).unmark c n x (p.without .replacement) pool [] :=
    (picked.behind (x := x) (by rw [placed, List.append_nil]) params rfl).seen (State.unmark_rest _)
  cases pool with
  | nil =>
    rw [grows rfl] at marks'
    rw [State.finish_of_clear _ ⟨true, marks'⟩]
    refine ⟨seen, fun i _ mem => ?_⟩
    obtain ⟨-, empty, -⟩ := picked.seeks rfl
    have mem : i ∈ (u.pick c n).pool := mem
    rw [empty] at mem
    cases mem
  | cons j rest =>
    obtain ⟨queue, seeking, others⟩ := State.proposes_pick circuit position live few' hpool
    rw [(nobody.congr queue seeking).finish (by rw [marks']) (by rw [marks'])]
    refine ⟨seen, fun i spare mem => ?_⟩
    have free : ((u.pick c n).lane i).state = .free := (form'.2 i).mp mem
    obtain ⟨-, -, claimed, -⟩ := picked.proposes j rest rfl
    have ne : i ≠ j := by
      rintro rfl
      exact nomatch claimed.symm.trans free
    rw [State.lane_unmark]
    refine ⟨free, ?_⟩
    rw [others i ne, freed i spare]
    rfl

/-- R114: a pick for a position without an attempt left exhausts its repair. -/
theorem State.pick_of_spent {s : State} {q : Position} (hx : s.circuit c = some x) (hq : x.positions[n]? = some q)
    (live : x.live = true) (spent : 3 ≤ q.attempts) : s.pick c n = s.exhaust c n := by
  simp [State.pick, hx, State.position_eq hx, hq, live, spent]

/-- R120, R121: the narrowing behind the return, at the end of the event. -/
theorem State.SpareReturned.narrows (h : r.SpareReturned u c n x p pool) (hp : x.positions[n]? = some p)
    (nd : x.lanes.Nodup) (unfree : ∀ j ∈ x.lanes, (r.lane j).state ≠ .free) (wide : x.minWidth ≤ x.width - 1)
    (here : p.dropped = false) :
    ∃ y, (u.exhaust c n).finish.circuit c = some y ∧ y.width = x.width - 1
      ∧ y.positions[n]? = some p.narrowed ∧ (u.exhaust c n).finish.pool = pool
      ∧ (∃ back, (u.exhaust c n).finish.placed = r.placed ++ .amend x.tag (byteOf n) none :: back)
      ∧ (∀ i, p.replacement = some i → ((u.exhaust c n).finish.lane i).state = .free
        ∧ ((u.exhaust c n).finish.lane i).place = none)
      ∧ ∀ o, p.current = some o → ((u.exhaust c n).finish.lane o).state = .quarantined
        ∧ ((u.exhaust c n).finish.lane o).place = none := by
  have held := h.held hp nd unfree
  obtain ⟨circuit, hpool, -, freed, params, placed, nobody, form, room, g, marks, -⟩ := h
  have position : (x.without ⟨c, .replacement, n⟩).positions[n]? = some (p.without .replacement) :=
    Circuit.getElem?_without (pl := ⟨c, .replacement, n⟩) hp
  have width := x.width_without ⟨c, .replacement, n⟩
  have away := State.narrowedAway_exhaust circuit position here rfl (by rw [width]; exact wide) (by rw [marks]) room
  have nobody' : (u.exhaust c n).NobodyWaits :=
    ⟨by rw [away.seeking, nobody.1]; rfl, by rw [away.queue]; exact nobody.2⟩
  have marks' := away.marks.trans marks
  rw [nobody'.finish (by rw [marks']) (by rw [marks'])]
  obtain ⟨y, hy, narrower, dropped⟩ := away.circuit
  have own (o) (current : p.current = some o) := held o (Circuit.mem_lanes_of_current position current)
  refine ⟨y, hy, by rw [narrower, width], dropped, (away.pool fun o current => (own o current).1).trans hpool,
    ⟨_, away.placed.trans (by rw [placed]; rfl)⟩, fun i spare => ?_, fun o current => ?_⟩
  · have lane : (u.exhaust c n).lane i = (r.lane i).freed := by
      have other : p.current ≠ some i := fun current =>
        (own i current).1 ((form.2 i).mpr (congrArg Lane.state (freed i spare)))
      rw [away.other i other, freed i spare]
    rw [State.lane_unmark, lane]
    exact ⟨rfl, rfl⟩
  · obtain ⟨gone, place, -⟩ := away.own o current
    exact ⟨gone, place⟩

/-- R40, R120: the close behind the return, at the end of the event. -/
theorem State.SpareReturned.closes (h : r.SpareReturned u c n x p pool) (hp : x.positions[n]? = some p)
    (nd : x.lanes.Nodup) (unfree : ∀ j ∈ x.lanes, (r.lane j).state ≠ .free) (live : x.live = true)
    (narrow : x.width - 1 < x.minWidth) : (u.exhaust c n).finish.pool = pool
      ∧ r.CloseBegun (u.exhaust c n).finish c (x.without ⟨c, .replacement, n⟩)
        (if x.everUp then .noSpare else .training) := by
  have held := h.held hp nd unfree
  obtain ⟨circuit, hpool, -, -, -, placed, nobody, -, room, g, marks, -⟩ := h
  have width := x.width_without ⟨c, .replacement, n⟩
  have going : x.state ≠ .closing := fun closing => by simp [Circuit.live, closing] at live
  have closes := State.closes_exhaust circuit going (by rw [width]; exact narrow) (by rw [marks])
    (room.mono (by decide)) n
  have nobody' : (u.exhaust c n).NobodyWaits :=
    ⟨by rw [closes.seeking, nobody.1]; rfl, by rw [closes.queue]; exact nobody.2⟩
  have marks' := closes.marks.trans marks
  rw [nobody'.finish (by rw [marks']) (by rw [marks'])]
  exact ⟨(closes.pool fun i m => (held i m).1).trans hpool,
    closes.begun rfl rfl placed (fun i m => by rw [(held i m).2]) rfl (fun _ => ⟨rfl, rfl⟩) rfl rfl⟩

end Returned

/-- Settles O50, by the answer and the attempts left; a spare that is not accepted returns to the pool first. -/
theorem amendReplyTaken : Obligations.AmendReplyTaken := by
  rintro s r q a g b why inOrder rfl clear
  have clear : (s.counted a).Unmarked := (s.scratch_counted a).trans clear
  have taken : exec (.amendReply q a g b why) s = .next ((s.counted a).received.takeAmendReply g b why).finish :=
    congrArg Host.Outcome.next (State.receive_inOrder inOrder a _)
  rw [taken]
  generalize s.counted a = r at *
  have idle := State.finish_received clear
  refine ⟨fun unknown => ?_, fun c x known => ?_⟩
  · have unknown : r.received.matchTag g = none := unknown
    rw [State.takeAmendReply, unknown]
    exact congrArg _ idle
  have known : r.received.matchTag g = some (c, x) := known
  have circuit : r.circuit c = some x := State.circuit_of_matchTag known
  refine ⟨fun w => ?_, fun p i origin live position proposed spare place ok => ?_,
    fun p pool origin live position proposed nd nobody form room fits => ?_⟩
  · rw [State.takeAmendReply_discards known w, idle]
  · have accepted : r.received.takeAmendReply g b why = r.received.spareAccepted c x b.toNat i := by
      rw [State.takeAmendReply_of known origin live position proposed, spare, ok]
      rfl
    rw [accepted]
    by_cases setup : x.state = .training
    · obtain ⟨after, _, _, own⟩ := State.spareAccepted_setup (n := b.toNat) clear circuit setup i
      refine ⟨_, rfl, by rw [own]; rfl, by rw [own]; rfl, by rw [own]; rfl, fun _ => ⟨?_, after⟩, fun no => absurd setup no⟩
      rw [own]
      simp [Lane.started, Lane.enter, Lane.asCurrent, place]
    · have up : x.state = .up ∨ x.state = .repairing := by simpa [Circuit.live, setup] using live
      obtain ⟨after, _, _, own⟩ := State.spareAccepted_upPhase (n := b.toNat) clear circuit up i
      exact ⟨_, rfl, by rw [own]; rfl, by rw [own]; rfl, by rw [own]; rfl, fun yes => absurd yes setup,
        fun _ => ⟨by rw [own]; exact place, after⟩⟩
  · have fits : r.SpareFits c b.toNat p (spareEnd why) pool := by
      refine fits.imp_right fun ⟨i, spare, place, claimed, clean, e⟩ => ⟨i, spare, place, claimed, clean, e.trans ?_⟩
      cases why <;> rfl
    have back := State.spareReturned clear circuit position nobody form room fits
    have replied (refused : why ≠ .ok ∨ p.replacement = none) :=
      (State.takeAmendReply_of known origin live position proposed why).trans
        (r.received.amendReplied_of c x b.toNat refused)
    have byte : byteOf b.toNat = b := byteOf_of_toNat rfl
    refine ⟨fun ok none few => ?_, fun lost few => ?_, fun spentOrNone unfree => ?_⟩
    · obtain ⟨picked, -⟩ := back.picks position live few
      rw [replied (.inr none), if_neg (by rw [ok]; decide)]
      have same : p.without .replacement = p := by rw [Position.without, ← none]
      obtain ⟨-, rfl⟩ := fits.resolve_right fun ⟨i, spare, _⟩ => nomatch none.symm.trans spare
      exact ⟨_, rfl, same ▸ picked⟩
    · rw [replied (.inl (by rcases lost with e | e <;> rw [e] <;> decide)),
        if_neg (by rcases lost with e | e <;> rw [e] <;> decide)]
      exact ⟨_, rfl, back.picks position live few⟩
    · have exhausts : r.received.takeAmendReply g b why
          = (r.received.returnSpare (spareEnd why) p.replacement).exhaust c b.toNat := by
        rcases spentOrNone with none | ⟨spent, refused⟩
        · rw [replied (.inl (by rw [none]; decide)), if_pos none]
        · rw [replied refused]
          split
          · rfl
          · exact State.pick_of_spent back.circuit
              (Circuit.getElem?_without (pl := ⟨c, .replacement, b.toNat⟩) position) live spent
      rw [exhausts]
      refine ⟨fun wide here => ?_, fun narrow => ?_⟩
      · obtain ⟨y, rest⟩ := back.narrows position nd unfree wide here
        rw [byte] at rest
        exact ⟨_, y, rfl, rest⟩
      · exact ⟨_, rfl, back.closes position nd unfree live narrow⟩

end Sys2Proof.Machine
end

section
/-! SUPPORT. Sys2Proof/Proofs/Buffers.lean: R129, R167 and log entry 22: the window and the fault log's ring keep their
forms, and an event leaves no mark behind. -/

namespace Sys2Proof.Machine

open Sys2Proof

/-! ### The window and the ring (R129, R167) -/

/-- R19: the rebuild of the lanes touches neither the channel nor the log. -/
theorem State.rebuildLanes_channel (s : State) :
    s.rebuildLanes.outstanding = s.outstanding ∧ s.rebuildLanes.sendQueue = s.sendQueue
      ∧ s.rebuildLanes.nextSeq = s.nextSeq ∧ s.rebuildLanes.ring = s.ring ∧ s.rebuildLanes.nextEntry = s.nextEntry := by
  obtain ⟨_, _, e, _⟩ := s.rebuildLanes_eq
  rw [e]
  exact ⟨rfl, rfl, rfl, rfl, rfl⟩

/-- Every command keeps the window. -/
theorem keptByEvents_window : KeptByEvents State.WindowKept where
  k := kept_window
  ev _ _ _ _ _ _ _ _ _ _ _ _ _ _ _ _ _ h := h
  config _ _ h := h
  freeUnit _ _ h := h
  lane' _ _ _ _ h := h
  lanes _ _ _ h := h
  session _ _ := ⟨Nat.zero_le _, Nat.zero_le _, rfl⟩
  rebuild s h :=
    have ⟨out, waiting, next, _, _⟩ := s.rebuildLanes_channel
    h.congr out waiting next
  reset _ _ _ _ _ := ⟨Nat.zero_le _, Nat.zero_le _, rfl⟩

/-- Every command keeps the fault log's ring. -/
theorem keptByEvents_log : KeptByEvents State.LogKept where
  k := kept_log
  ev _ _ _ _ _ _ _ _ _ _ _ _ _ _ _ _ _ h := h
  config _ _ h := h
  freeUnit _ _ h := h
  lane' _ _ _ _ h := h
  lanes _ _ _ h := h
  session _ h := h
  rebuild s h :=
    have ⟨_, _, _, ring, next⟩ := s.rebuildLanes_channel
    h.congr ring next
  reset _ _ _ _ _ := ⟨Nat.zero_le _, rfl⟩

/-! ### The marks (log entry 22) -/

/-- The end of an event clears the marks, whatever stood before. -/
theorem State.unmarked_finish (s : State) : s.finish.Unmarked := rfl

section Marks

variable {s : State}

theorem State.Unmarked.discardFrame (h : s.Unmarked) : s.discardFrame.Unmarked := by
  unfold State.discardFrame
  split <;> exact h

theorem State.Unmarked.acknowledge (h : s.Unmarked) (a : Seq) : (s.acknowledge a).Unmarked := by
  rw [State.Unmarked, State.acknowledge_scratch, h]

theorem State.Unmarked.receive (h : s.Unmarked) (q a : Seq) (deliver : State → State) :
    (s.receive q a deliver).Unmarked := by
  unfold State.receive
  split
  · exact h.discardFrame
  · dsimp only
    split
    · exact State.unmarked_finish _
    · exact State.Unmarked.acknowledge (s := { s with silenceCount := 0 }) h a

theorem State.Unmarked.receiveJoin (h : s.Unmarked) (j : JoinInfo) : (s.receiveJoin j).Unmarked := by
  unfold State.receiveJoin
  split
  · split
    · exact h.discardFrame
    · unfold State.joinWhileJoining
      split
      · split <;> exact h
      · dsimp only
        split
        · exact State.unmarked_finish _
        · exact h
  · unfold State.joinUp
    dsimp only
    split
    · exact State.unmarked_finish _
    · split
      · exact h
      · split
        · exact h
        · exact State.unmarked_finish _
  · exact h
  · exact h.discardFrame

theorem State.Unmarked.controlTickIf (h : s.Unmarked) (due : Bool) : (s.controlTickIf due).Unmarked := by
  unfold State.controlTickIf State.controlTicked
  split
  · dsimp only
    split
    · exact h
    · exact h
    · exact State.unmarked_finish _
    · exact h
  · exact h

theorem State.Unmarked.sweepTickIf (h : s.Unmarked) (due : Bool) : (s.sweepTickIf due).Unmarked := by
  unfold State.sweepTickIf
  split
  · exact State.unmarked_finish _
  · exact h

theorem State.Unmarked.endTransaction (h : s.Unmarked) (p : PortId) (code : Byte) (n : Nat)
    (frame : Port → Transaction → List Byte) (act : Port → Transaction → Port) :
    (s.endTransaction p code n frame act).Unmarked := by
  have taken : (if (s.port p).transaction = none then s.takeCommand p code else s).Unmarked := by
    split <;> exact h
  unfold State.endTransaction
  dsimp only
  split
  · exact taken
  · split <;> exact taken

theorem State.Unmarked.endLoad (h : s.Unmarked) (image : List Byte) : (s.endLoad image).Unmarked := by
  have logged (l : List (LogKind × Half)) (u : State) (clear : u.Unmarked) :
      (l.foldl (fun s e => s.log e.1 none none e.2) u).Unmarked := by
    induction l generalizing u with
    | nil => exact clear
    | cons e l ih => exact ih _ clear
  exact logged _ { s with params := (loadImage image).params } h

/-! #### Requests -/

theorem State.Unmarked.takeRequest (h : s.Unmarked) (p : PortId) (kind : ReqKind) {act : List Byte → State}
    (owner : ∀ b, (act b).Unmarked) : (s.takeRequest p kind act).Unmarked := by
  unfold State.takeRequest
  split
  · exact h
  · exact owner _

theorem State.Unmarked.takeOpen (h : s.Unmarked) (p : PortId) (tag : Byte) (b : List Byte) :
    (s.takeOpen p tag b).Unmarked := by
  unfold State.takeOpen
  split
  · exact h
  · split
    · exact h
    · exact State.unmarked_finish _

theorem State.Unmarked.closeSlot (h : s.Unmarked) (p : PortId) (c : SlotId) : (s.closeSlot p c).Unmarked := by
  unfold State.closeSlot
  split
  · exact h
  · split
    · exact h
    · split
      · exact h
      · exact State.unmarked_finish _
      · exact State.unmarked_finish _

theorem State.Unmarked.takeClose (h : s.Unmarked) (p : PortId) (b : List Byte) : (s.takeClose p b).Unmarked := by
  unfold State.takeClose
  split
  · split
    · exact h
    · exact h.closeSlot p _
  · exact h

theorem State.Unmarked.takeWithdraw (h : s.Unmarked) (p : PortId) (b : List Byte) : (s.takeWithdraw p b).Unmarked := by
  unfold State.takeWithdraw
  split
  · split
    · exact h
    · exact State.unmarked_finish _
  · exact h

theorem State.Unmarked.takeCircuitStatus (h : s.Unmarked) (p : PortId) (b : List Byte) :
    (s.takeCircuitStatus p b).Unmarked := by
  unfold State.takeCircuitStatus
  split
  · split <;> exact h
  · exact h

theorem State.Unmarked.takeLaneStatus (h : s.Unmarked) (p : PortId) (b : List Byte) :
    (s.takeLaneStatus p b).Unmarked := by
  unfold State.takeLaneStatus
  split
  · split <;> exact h
  · exact h

theorem State.Unmarked.takeReadLog (h : s.Unmarked) (p : PortId) (b : List Byte) : (s.takeReadLog p b).Unmarked := by
  unfold State.takeReadLog
  split
  · split
    · unfold State.readLog
      dsimp only
      split <;> exact h
    · exact h
  · exact h

theorem State.Unmarked.takeReadParam (h : s.Unmarked) (p : PortId) (b : List Byte) :
    (s.takeReadParam p b).Unmarked := by
  unfold State.takeReadParam
  split
  · split <;> exact h
  · exact h

theorem State.Unmarked.takeWriteParam (h : s.Unmarked) (p : PortId) (b : List Byte) :
    (s.takeWriteParam p b).Unmarked := by
  unfold State.takeWriteParam State.writeParam
  split
  · split
    · exact h
    · split
      · exact h
      · exact State.unmarked_finish _
  · exact h

theorem State.Unmarked.takeLane1 (h : s.Unmarked) (p : PortId) (act : LaneId → State) (b : List Byte) :
    (s.takeLane1 p act b).Unmarked := by
  unfold State.takeLane1
  split
  · split
    · exact h
    · exact State.unmarked_finish _
  · exact h

end Marks

/-- Log entry 22: a command ends its event with the marks clear, or raises none. -/
theorem exec_unmarked {s t : State} (h : s.Unmarked) (c : Instr) (e : exec c s = .next t) : t.Unmarked := by
  cases c with
  | deviceReset => cases e; rfl
  | configLoadEnd image =>
    cases e
    split
    · exact h.endLoad image
    · exact h
  | hostArrival => cases e; split <;> exact h
  | hostDeparture =>
    cases e
    split
    · exact State.unmarked_finish _
    · exact h
  | commandByte => cases e; exact h
  | writeRequest | readReply | readNotice | readStatus => cases e; exact h.endTransaction _ _ _ _ _
  | unknownCommand =>
    cases e
    split
    · exact h
    · exact h.endTransaction _ _ _ _ _
  | openCircuit p => cases e; exact h.takeRequest p _ (h.takeOpen p _)
  | closeRequest p => cases e; exact h.takeRequest p _ (h.takeClose p)
  | withdraw p => cases e; exact h.takeRequest p _ (h.takeWithdraw p)
  | circuitStatus p => cases e; exact h.takeRequest p _ (h.takeCircuitStatus p)
  | laneStatus p => cases e; exact h.takeRequest p _ (h.takeLaneStatus p)
  | trunkStatus p => cases e; exact h.takeRequest p _ fun _ => h
  | readLog p => cases e; exact h.takeRequest p _ (h.takeReadLog p)
  | readParam p => cases e; exact h.takeRequest p _ (h.takeReadParam p)
  | writeParam p => cases e; exact h.takeRequest p _ (h.takeWriteParam p)
  | fenceLane p => cases e; exact h.takeRequest p _ (h.takeLane1 p _)
  | unfenceLane p => cases e; exact h.takeRequest p _ (h.takeLane1 p _)
  | restartTrunk p => cases e; exact h.takeRequest p _ fun _ => State.unmarked_finish _
  | badFrame => cases e; split <;> exact h
  | join _ _ j | joinWhileUp _ _ j => cases e; exact h.receiveJoin j
  | ack _ a =>
    cases e
    split
    · exact State.Unmarked.acknowledge (s := { s with silenceCount := 0 }) h a
    · exact h.discardFrame
  | setup | accept | refuse | trained | laneFail | amend | amendReply | close | closed | fence | unfence =>
    cases e; exact h.receive _ _ _
  | frameTransmit => cases e; unfold State.beginFrame; split <;> exact h
  | controlTick | retransmit | tccRetry | peerSilent => cases e; exact h.controlTickIf _
  | sweepTick | quarantineRelease | openExpired | seekExhausted => cases e; exact h.sweepTickIf _
  | dwellResult u o =>
    cases e
    split
    · exact h
    · exact State.unmarked_finish _
  | lossOfLock =>
    cases e
    split
    · exact State.unmarked_finish _
    · exact h

/-- Settles O9: window and ring are forms that every command's updates keep, and every event ends unmarked. -/
theorem stepKeepsBuffers : Obligations.StepKeepsBuffers := by
  intro s t e
  unfold step at e
  split at e
  · cases e
    exact ⟨id, id, id⟩
  · rename_i c rest _
    let front : State := { s with pending := rest }
    exact ⟨fun h => keptByEvents_window.exec_keeps (s := front) h c t e,
      fun h => keptByEvents_log.exec_keeps (s := front) h c t e, fun h => exec_unmarked (s := front) h c e⟩

end Sys2Proof.Machine
end

section
/-! SUPPORT. Sys2Proof/Proofs/Received.lean: a frame's bytes are read back as the frame (R126 to R128): each coded field,
each payload, the check and the delimiter. -/

namespace Sys2Proof.Machine

open Sys2Proof

/-! ### Coded fields (R128) -/

@[simp] theorem sideOf_sideByte (x : Side) : sideOf (sideByte x) = some x := by cases x <;> rfl

@[simp] theorem clsOf_clsByte (x : Cls) : clsOf (clsByte x) = some x := by cases x <;> rfl

@[simp] theorem failOf_failByte (x : FailReason) : failOf (failByte x) = some x := by cases x <;> rfl

@[simp] theorem fenceOf_fenceByte (x : FenceReason) : fenceOf (fenceByte x) = some x := by
  cases x with
  | training => rfl
  | failure r => cases r <;> rfl

@[simp] theorem refuseOf_refuseByte (x : RefuseReason) : refuseOf (refuseByte x) = some x := by cases x <;> rfl

@[simp] theorem closeOf_closeByte (x : CloseReason) : closeOf (closeByte x) = some x := by cases x <;> rfl

@[simp] theorem amendOf_amendByte (x : AmendResult) : amendOf (amendByte x) = some x := by cases x <;> rfl

@[simp] theorem trainedOf_trainedByte (x : Bool) : trainedOf (trainedByte x) = some x := by cases x <;> rfl

@[simp] theorem flagsOf_flagsByte (ready up : Bool) : flagsOf (flagsByte ready up) = some (ready, up) := by
  cases ready <;> cases up <;> rfl

/-! ### Numbers, masks and tags -/

theorem toNat_byteOf {n : Nat} (h : n < 256) : (byteOf n).toNat = n := by
  simpa [byteOf] using h

@[simp] theorem halfOf_halfBytes (h : Half) : halfOf (h.extractLsb' 8 8) (h.extractLsb' 0 8) = h := by
  apply BitVec.eq_of_getLsbD_eq
  intro i lt
  simp only [halfOf, BitVec.getLsbD_append, BitVec.getLsbD_extractLsb']
  split
  · simp [*]
  · have : 8 + (i - 8) = i := by omega
    have : i - 8 < 8 := by omega
    simp [*]

@[simp] theorem maskOf_maskBytes (m : Mask) :
    maskOf (m.extractLsb' 16 8) (m.extractLsb' 8 8) (m.extractLsb' 0 8) = m := by
  apply BitVec.eq_of_getLsbD_eq
  intro i lt
  simp only [maskOf, BitVec.getLsbD_append, BitVec.getLsbD_extractLsb']
  split
  · simp [*]
  · split
    · have : 8 + (i - 8) = i := by omega
      simp [*]
    · have : 16 + (i - 8 - 8) = i := by omega
      have : i - 8 - 8 < 8 := by omega
      simp [*]

/-- R128: the slot stands in the high half of the second tag byte, the generation in the low half. -/
@[simp] theorem tagOf_tagBytes (t : Tag) : tagOf (sideByte t.side) (slotGenByte t.slot t.gen) = some t := by
  have slot : Fin.ofNat 16 ((slotGenByte t.slot t.gen).toNat / 16) = t.slot := by
    apply Fin.ext
    have low : t.gen.toNat < 16 := t.gen.isLt
    have high : t.slot.val < 16 := t.slot.isLt
    have whole : (slotGenByte t.slot t.gen).toNat = t.slot.val * 16 + t.gen.toNat := by
      rw [slotGenByte, BitVec.toNat_append, ← Nat.shiftLeft_add_eq_or_of_lt low, Nat.shiftLeft_eq, BitVec.toNat_ofNat]
      omega
    simp only [Fin.ofNat, whole]
    omega
  have gen : (slotGenByte t.slot t.gen).extractLsb' 0 4 = t.gen := by
    apply BitVec.eq_of_getLsbD_eq
    intro i lt
    rw [slotGenByte, BitVec.getLsbD_extractLsb', BitVec.getLsbD_append]
    simp [lt]
  rw [tagOf, sideOf_sideByte, Option.map_some, slot, gen]

@[simp] theorem pairsOf_pairBytes (pairs : List (Byte × Byte)) : pairsOf (pairBytes pairs) = some pairs := by
  induction pairs with
  | nil => rfl
  | cons p rest ih => simp [pairBytes, pairsOf, ih]

@[simp] theorem length_pairBytes (pairs : List (Byte × Byte)) : (pairBytes pairs).length = 2 * pairs.length := by
  induction pairs with
  | nil => rfl
  | cons p rest ih =>
    simp only [pairBytes, List.length_cons, ih]
    omega

/-! ### Payloads (R128) -/

theorem length_of_refuseCountOk {r : RefuseReason} {n : Nat} (h : refuseCountOk r n = true) : n ≤ 8 := by
  unfold refuseCountOk at h
  split at h
  · exact (of_decide_eq_true h).2
  · exact (of_decide_eq_true h).le.trans (Nat.zero_le 8)

theorem setupOf_payload (t : Tag) (far near : Byte) (cls : Cls) (rw mw : Byte) {pairs : List (Byte × Byte)}
    (fits : pairs.length ≤ 123) :
    setupOf (Msg.setup t far near cls rw mw pairs).payload = some (.setup t far near cls rw mw pairs) := by
  have count : (byteOf pairs.length).toNat = pairs.length := toNat_byteOf (by omega)
  simp [Msg.payload, tagBytes, setupOf, count]

theorem refuseMsgOf_payload (t : Tag) {r : RefuseReason} {lanes : List Byte}
    (fits : refuseCountOk r lanes.length = true) :
    refuseMsgOf (Msg.refuse t r lanes).payload = some (.refuse t r lanes) := by
  have few := length_of_refuseCountOk fits
  have count : (byteOf lanes.length).toNat = lanes.length := toNat_byteOf (by omega)
  simp [Msg.payload, tagBytes, refuseMsgOf, count, fits]

theorem amendMsgOf_payload (t : Tag) (pos : Byte) (lane : Option Byte) :
    amendMsgOf (Msg.amend t pos lane).payload = some (.amend t pos lane) := by
  cases lane <;> simp [Msg.payload, tagBytes, amendMsgOf]

/-- R128: a message's kind and payload are read back as the message. -/
theorem msgOf_payload {m : Msg} (fits : m.fits = true) : msgOf m.kindByte m.payload = some m := by
  cases m with
  | setup => exact setupOf_payload _ _ _ _ _ _ (of_decide_eq_true fits)
  | refuse => exact refuseMsgOf_payload _ fits
  | amend => exact amendMsgOf_payload _ _ _
  | accept | trained | laneFail | amendReply | close | closed | fence | unfence =>
    simp [Msg.kindByte, Msg.payload, tagBytes, msgOf]

theorem joinOf_payload (j : JoinInfo) : joinOf (Body.join j).payload = some (.join j) := by
  simp [Body.payload, maskBytes, joinOf]

theorem bodyOf_payload {b : Body} (fits : ∀ m, b = .msg m → m.fits = true) : bodyOf b.kindByte b.payload = some b := by
  cases b with
  | join j => exact joinOf_payload j
  | ack => rfl
  | msg m =>
    have read := msgOf_payload (fits m rfl)
    cases m <;> exact congrArg (Option.map Body.msg) read

theorem length_payload_lt {b : Body} (fits : ∀ m, b = .msg m → m.fits = true) : b.payload.length < 256 := by
  cases b with
  | join j => simp [Body.payload, maskBytes]
  | ack => simp [Body.payload]
  | msg m =>
    have fits := fits m rfl
    cases m with
    | setup t far near cls rw mw pairs =>
      have : pairs.length ≤ 123 := of_decide_eq_true fits
      simp only [Body.payload, Msg.payload, List.length_append, length_tagBytes, length_pairBytes, List.length_cons,
        List.length_nil]
      omega
    | refuse t r lanes =>
      have := length_of_refuseCountOk (r := r) fits
      simp only [Body.payload, Msg.payload, List.length_append, length_tagBytes, List.length_cons, List.length_nil]
      omega
    | amend t p lane => cases lane <;> simp [Body.payload, Msg.payload]
    | accept | trained | laneFail | amendReply | close | closed | fence | unfence =>
      simp [Body.payload, Msg.payload]

/-! ### Frames (R126, R127) -/

theorem seqByte_lt (q : Seq) : (q.zeroExtend 8).toNat < 64 := by
  have : q.toNat < 64 := q.isLt
  simp only [BitVec.toNat_setWidth]
  omega

theorem truncate_seqByte (q : Seq) : (q.zeroExtend 8).truncate 6 = q := by
  apply BitVec.eq_of_toNat_eq
  have : q.toNat < 64 := q.isLt
  simp only [BitVec.toNat_setWidth]
  omega

theorem frameOf_payload {f : Frame} (fits : ∀ m, f.body = .msg m → m.fits = true) :
    frameOf f.body.kindByte (f.seq.zeroExtend 8) (f.ack.zeroExtend 8) f.body.payload = some f := by
  rw [frameOf, if_pos ⟨seqByte_lt f.seq, seqByte_lt f.ack⟩, bodyOf_payload fits, Option.map_some, truncate_seqByte,
    truncate_seqByte]

/-- R126, R127: what follows the delimiter is read back as the frame: its length tells the payload from the check. -/
theorem frameAfterDelimiter_checked {f : Frame} (fits : ∀ m, f.body = .msg m → m.fits = true) :
    frameAfterDelimiter (f.checked ++ halfBytes (crc f.checked)) = some f := by
  have count : (byteOf f.body.payload.length).toNat = f.body.payload.length := toNat_byteOf (length_payload_lt fits)
  simp [Frame.checked, frameAfterDelimiter, count, halfBytes, frameOf_payload fits]

/-- R127: bytes without a delimiter are dropped. -/
theorem judge_noise {noise : List Byte} (h : delimiter ∉ noise) (bytes : List Byte) :
    judge (noise ++ delimiter :: bytes) = judge (delimiter :: bytes) := by
  have dropped : (noise ++ delimiter :: bytes).dropWhile (· != delimiter) = delimiter :: bytes := by
    rw [List.dropWhile_append_of_pos fun b mem => by simpa using fun e : b = delimiter => h (e ▸ mem)]
    simp
  have kept : (delimiter :: bytes).dropWhile (· != delimiter) = delimiter :: bytes := by simp
  rw [judge, judge, dropped, kept]

/-- Settles O13: the noise is dropped, and what follows the delimiter is read back. -/
theorem frameIsReceivedAsSent : Obligations.FrameIsReceivedAsSent := by
  intro noise f clean fits
  have bytes : f.bytes = delimiter :: (f.checked ++ halfBytes (crc f.checked)) := rfl
  rw [bytes, judge_noise clean]
  simp [judge, frameAfterDelimiter_checked fits]

end Sys2Proof.Machine
end

section
/-! SUPPORT. Sys2Proof/Proofs/Lines.lean: bad frames, the frame begun, and what follows a lane's state: its transmitter and
its binding in the crosspoint (R3, R10, R126, R127, R144, R145). -/

namespace Sys2Proof.Machine

open Sys2Proof

theorem execBadFrame_of {bytes : List Byte} (bad : judge bytes = .bad) (s : State) :
    exec (.badFrame bytes) s = .next (if s.trunk = .down then s
      else { s with badFrames := satSucc 65535 s.badFrames, partFrame := false }) := by
  refine congrArg Host.Outcome.next ?_
  by_cases down : s.trunk = .down <;> simp [down, bad]

theorem State.beginFrame_of_empty {s : State} (h : s.txFrames = []) : s.beginFrame = s := by
  unfold State.beginFrame
  rw [h]

theorem State.beginFrame_of_cons {s : State} {f : Frame} {rest : List Frame} (h : s.txFrames = f :: rest) :
    s.beginFrame = { s with txFrames := rest, sending := some f } := by
  unfold State.beginFrame
  rw [h]

/-- Settles O14: the two line events, and the lane states one by one. -/
theorem lineEvents : Obligations.LineEvents := by
  intro bytes s
  refine ⟨fun bad => ⟨fun down => ?_, fun listening => ?_⟩, fun empty => ?_, fun f rest waiting => ?_, fun i =>
    ⟨fun carries => ⟨?_, fun _ _ _ place circuit position =>
      State.Fills.boundTo ⟨place, circuit, position⟩ carries⟩, fun trains => ?_, fun idles => ?_⟩⟩
  · rw [execBadFrame_of bad, if_pos down]
  · rw [execBadFrame_of bad, if_neg listening]
    rfl
  · exact congrArg Host.Outcome.next (State.beginFrame_of_empty empty)
  · exact congrArg Host.Outcome.next (State.beginFrame_of_cons waiting)
  · rcases carries with e | e <;> rw [e] <;> rfl
  · refine ⟨?_, State.boundTo_of_other fun carries => ?_⟩
    · rcases trains with e | e | e <;> rw [e] <;> rfl
    · rcases trains with e | e | e <;> simp [e] at carries
  · refine ⟨?_, State.boundTo_of_other fun carries => ?_⟩
    · rcases idles with e | e | e | e <;> rw [e] <;> rfl
    · rcases idles with e | e | e | e <;> simp [e] at carries

end Sys2Proof.Machine
end

section
/-! SUPPORT. Sys2Proof/Proofs/Joining.lean: RESTART_TRUNK and JOIN by the trunk state, with the loss and the JOINING period
that they begin (R127, R139, R140, R143 to R146). -/

namespace Sys2Proof.Machine

open Sys2Proof

/-! ### The loss (R144) -/

/-- An event whose last work is the trunk's loss ends with what the loss leaves. -/
theorem State.finish_goLost (s : State) (r : LossReason) : (s.goLost r).finish = (s.goLost r).unmark := by
  obtain ⟨_, _, _, _, _, _, _, e, _⟩ := s.goLost_eq r
  exact State.finish_of_lost _ (by rw [e]; rfl) (by rw [e]) (by rw [e])

/-- R144: the trunk state, the reason and the mark of a frame that is arriving, at a loss. -/
theorem State.goLost_trunk (s : State) (r : LossReason) :
    (s.goLost r).trunk = .lost ∧ (s.goLost r).lastLoss = some r
      ∧ (s.goLost r).partFrame = (!s.scratch.received && Config.partAtLoss s.losses) := by
  obtain ⟨_, _, _, _, _, _, _, e, _⟩ := s.goLost_eq r
  rw [e]
  exact ⟨rfl, rfl, rfl⟩

/-- R20, R48: no lane is left in a pool, in a circuit or on the line. -/
theorem State.goLost_bare (s : State) (r : LossReason) :
    (s.goLost r).pool = [] ∧ (∀ c, (s.goLost r).circuit c = none) ∧ ∀ i, ((s.goLost r).lane i).state = .offline := by
  obtain ⟨_, _, _, _, _, _, _, e, lanes, slots, _⟩ := s.goLost_eq r
  rw [e]
  refine ⟨rfl, fun c => ?_, fun i => ?_⟩
  · exact congrArg Slot.circuit (slots c)
  · exact (congrArg Lane.state (lanes i)).trans (Lane.atLoss_state _)

/-- R127, R144: a loss in the event of a received frame leaves no part of another frame arriving. -/
theorem State.lost_by_frame (s : State) (r : LossReason) :
    (s.received.goLost r).finish.trunk = .lost ∧ (s.received.goLost r).finish.lastLoss = some r
      ∧ (s.received.goLost r).finish.partFrame = false := by
  obtain ⟨trunk, reason, part⟩ := s.received.goLost_trunk r
  rw [State.finish_goLost]
  generalize s.received.goLost r = t at trunk reason part ⊢
  exact ⟨trunk, reason, part⟩

/-! ### RESTART_TRUNK (R146) -/

/-- R146, R154: a restart is answered OK behind its effect, and the event ends. -/
theorem exec_restartTrunk {s : State} {h : PortId} {tag : Byte} (asks : s.Asks h .restartTrunk tag [])
    (kept : s.restartByHost.Asks h .restartTrunk tag []) :
    exec (.restartTrunk h) s = .next (s.restartByHost.answered h .restartTrunk tag .ok []).finish := by
  refine congrArg Host.Outcome.next ((State.takeRequest_of_asks asks _).trans ?_)
  rw [State.reply_of_asks kept]

/-- The end of the event of a reply behind a loss. -/
theorem State.finish_answered_goLost (s : State) (r : LossReason) (h : PortId) (k : ReqKind) (tag : Byte) (st : Status)
    (rs : List Byte) :
    ((s.goLost r).answered h k tag st rs).finish = ((s.goLost r).answered h k tag st rs).unmark := by
  obtain ⟨_, _, _, _, _, _, _, e, _⟩ := s.goLost_eq r
  exact State.finish_of_lost _ (by rw [e]; rfl) (by rw [e]; rfl) (by rw [e]; rfl)

/-- Settles O35, by the trunk state. -/
theorem restartTrunkTaken : Obligations.RestartTrunkTaken := by
  intro s h tag asks clear
  refine ⟨fun lost => ?_, fun joining => ?_, fun up => ?_⟩
  · have left : s.restartByHost = s := by rw [State.restartByHost, lost]
    rw [exec_restartTrunk asks (by rw [left]; exact asks), left, State.finish_of_unmarked _ (by exact clear)]
  · have begun : s.restartByHost = s.beginJoining := by rw [State.restartByHost, joining]
    rw [exec_restartTrunk asks (by rw [begun]; exact asks), begun, State.finish_of_unmarked _ (by exact clear)]
    refine ⟨_, rfl, ?_⟩
    unfold State.beginJoining
    rw [← joining]
    rfl
  · have gone : s.restartByHost = s.goLost .restart := by rw [State.restartByHost, up]
    have kept : (s.goLost .restart).Asks h .restartTrunk tag [] := ((kept_within s).goLost (.refl s) _).asks asks
    obtain ⟨trunk, reason, _⟩ := s.goLost_trunk .restart
    obtain ⟨pool, circuits, lanes⟩ := s.goLost_bare .restart
    rw [exec_restartTrunk asks (by rw [gone]; exact kept), gone, State.finish_answered_goLost]
    generalize s.goLost .restart = t at trunk reason pool circuits lanes ⊢
    exact ⟨_, rfl, trunk, reason, State.link_answered _ _ _ _ _ _, pool, circuits, lanes⟩

/-! ### JOIN (R140, R143, R144) -/

section Join

variable {s : State}

theorem State.discardFrame_of_down (down : s.trunk = .down) : s.discardFrame = s := if_pos down

theorem State.discardFrame_of_listening (listening : s.trunk ≠ .down) : s.discardFrame = { s with partFrame := false } :=
  if_neg listening

/-- Log entry 7: both rows that name a JOIN are one event. -/
theorem exec_join {q a : Seq} {j : JoinInfo} {c : Instr} (named : c = .join q a j ∨ c = .joinWhileUp q a j) :
    exec c s = .next (s.receiveJoin j) := by
  rcases named with rfl | rfl <;> rfl

theorem State.receiveJoin_down (down : s.trunk = .down) (j : JoinInfo) : s.receiveJoin j = s := by
  rw [State.receiveJoin, down]

theorem State.receiveJoin_discards (h : s.trunk = .lost ∨ s.trunk = .joining ∧ s.partFrame = true) (j : JoinInfo) :
    s.receiveJoin j = { s with partFrame := false } := by
  have discarded : s.receiveJoin j = s.discardFrame := by
    rcases h with lost | ⟨joining, part⟩
    · simp [State.receiveJoin, lost]
    · simp [State.receiveJoin, joining, part]
  refine discarded.trans (State.discardFrame_of_listening ?_)
  rcases h with lost | ⟨joining, _⟩
  · simp [lost]
  · simp [joining]

theorem State.receiveJoin_joining (joining : s.trunk = .joining) (whole : s.partFrame = false) (j : JoinInfo) :
    s.receiveJoin j = s.joinWhileJoining j := by
  simp [State.receiveJoin, joining, whole]

theorem State.receiveJoin_up (up : s.trunk = .up) (j : JoinInfo) : s.receiveJoin j = s.joinUp j := by
  rw [State.receiveJoin, up]

/-- R140: a bare JOIN is heard and its masks recorded. -/
theorem State.joinWhileJoining_bare {j : JoinInfo} (far : j.side ≠ s.side) (ready : j.ready = false) (up : j.up = false) :
    s.joinWhileJoining j
      = { s with peerHeard := true, peerEnable := some j.enable, peerFences := some j.fences } := by
  simp [State.joinWhileJoining, far, ready, up]

/-- R140: a clash is logged once in a JOINING period. -/
theorem State.joinWhileJoining_clash {j : JoinInfo} (near : j.side = s.side) :
    s.joinWhileJoining j = if s.clash then s else { s.log .joinClash none none 0 with clash := true } :=
  if_pos near

/-- R143: a JOIN while UP that loses the trunk, and with which reason. -/
theorem State.joinUp_loses {j : JoinInfo} (h : j.side = s.side ∨ (j.up = false ∧ j.ready = false)) :
    s.joinUp j = (State.goLost (State.received { s with silenceCount := 0 })
      (if j.side = s.side then .sideClash else .peerRestart)).finish := by
  unfold State.joinUp
  dsimp only
  by_cases near : j.side = s.side
  · rw [if_pos near, if_pos near]
  · obtain ⟨up, ready⟩ := h.resolve_left near
    rw [if_neg near, if_neg near, if_neg (by simp [up]), if_neg (by simp [ready])]

end Join

/-- Settles O36, by the trunk state and the JOIN's fields. -/
theorem joinHandled : Obligations.JoinHandled := by
  intro s q a j c named
  rw [exec_join named]
  refine ⟨fun down => ?_, fun discards => ?_, fun joining whole far ready up => ?_, fun joining whole near clash => ?_,
    fun joining whole near clash => ?_, fun up far peerUp => ?_, fun up far peerUp ready => ?_, fun up loses => ?_⟩
  · rw [State.receiveJoin_down down]
  · rw [State.receiveJoin_discards discards]
  · rw [State.receiveJoin_joining joining whole, State.joinWhileJoining_bare far ready up]
  · rw [State.receiveJoin_joining joining whole, State.joinWhileJoining_clash near, if_pos clash]
  · rw [State.receiveJoin_joining joining whole, State.joinWhileJoining_clash near, if_neg (by simp [clash])]
  · rw [State.receiveJoin_up up]
    simp [State.joinUp, far, peerUp]
  · rw [State.receiveJoin_up up]
    simp only [State.joinUp, far, peerUp, ready, if_true, if_false, Bool.false_eq_true]
    rfl
  · rw [State.receiveJoin_up up, State.joinUp_loses loses]
    exact ⟨_, rfl, State.lost_by_frame _ _⟩

end Sys2Proof.Machine
end

section
/-! SUPPORT. Sys2Proof/Proofs/Delivery.lean: what an ack passes and lets out, sequenced frames that are not accepted, and
the control tick while the trunk is not lost by it (R127, R131 to R136, R139, R144, R145). -/

namespace Sys2Proof.Machine

open Sys2Proof

/-! ### Acknowledgement (R131, R133) -/

/-- R131: transmission with enough turns goes on until nothing waits or the window is full. -/
theorem State.transmit_full (n : Nat) {s : State} (inside : s.outstanding.length ≤ Config.window)
    (turns : Config.window ≤ s.outstanding.length + n) :
    (State.transmit n s).sendQueue = [] ∨ (State.transmit n s).outstanding.length = Config.window := by
  induction n generalizing s with
  | zero => exact .inr (le_antisymm inside turns)
  | succ n ih =>
    unfold State.transmit
    split
    · exact .inl ‹_›
    · split
      · refine ih ?_ ?_
        · simp only [State.hand_outstanding, List.length_append, List.length_singleton]
          omega
        · simp only [State.hand_outstanding, List.length_append, List.length_singleton]
          omega
      · exact .inr (by omega)

section Ack

variable {s : State} {o a : Seq} {m : Msg} {rest : List (Seq × Msg)}

theorem State.acknowledge_of_empty (h : s.outstanding = []) (a : Seq) : s.acknowledge a = s := by
  unfold State.acknowledge
  rw [h]

theorem State.acknowledge_of_none_passed (first : s.outstanding = (o, m) :: rest)
    (outside : (a - o).toNat = 0 ∨ s.outstanding.length < (a - o).toNat) : s.acknowledge a = s := by
  unfold State.acknowledge
  rw [first] at outside ⊢
  exact if_neg fun ⟨_, _⟩ => by omega

/-- R133: the `n` oldest messages have been acknowledged, and no waiting one has gone out yet. -/
def State.passed (s : State) (n : Nat) : State :=
  { s.dropFrames ((s.outstanding.take n).map Prod.fst) with
    outstanding := s.outstanding.drop n, mark := false, retryCount := 0 }

theorem State.placed_passed {n : Nat} (le : n ≤ s.outstanding.length) : (s.passed n).placed = s.placed.drop n := by
  rw [State.placed, State.placed, List.drop_append_of_le_length (by simpa using le), ← List.map_drop]
  rfl

/-- R133: an ack that passes some messages removes them and lets waiting ones out. -/
theorem State.acknowledge_of_passed (first : s.outstanding = (o, m) :: rest) (one_le : 1 ≤ (a - o).toNat)
    (le : (a - o).toNat ≤ s.outstanding.length) :
    s.acknowledge a = State.transmit Config.window (s.passed (a - o).toNat) := by
  unfold State.acknowledge
  split
  · rename_i empty
    rw [first] at empty
    cases empty
  · rename_i e
    rw [first] at e
    cases e
    exact if_pos ⟨one_le, le⟩

/-- R131, R133: what an ack that passes messages leaves. -/
theorem State.acknowledge_passes (first : s.outstanding = (o, m) :: rest) (one_le : 1 ≤ (a - o).toNat)
    (le : (a - o).toNat ≤ s.outstanding.length) (inside : s.outstanding.length ≤ Config.window) :
    (s.acknowledge a).mark = false ∧ (s.acknowledge a).retryCount = 0
      ∧ (s.acknowledge a).placed = s.placed.drop (a - o).toNat
      ∧ ((s.acknowledge a).sendQueue = [] ∨ (s.acknowledge a).outstanding.length = Config.window) := by
  have fewer : (s.passed (a - o).toNat).outstanding.length ≤ Config.window := by
    simp only [State.passed, List.length_drop]
    omega
  have full := State.transmit_full Config.window fewer (Nat.le_add_left _ _)
  have placed := (State.placed_transmit Config.window _).trans (State.placed_passed le)
  obtain ⟨_, _, _, _, _, e⟩ := State.transmit_eq Config.window (s.passed (a - o).toNat)
  rw [State.acknowledge_of_passed first one_le le]
  exact ⟨by rw [e]; rfl, by rw [e]; rfl, placed, full⟩

theorem exec_ack (up : s.trunk = .up) (q a : Seq) :
    exec (.ack q a) s = .next (State.acknowledge { s with silenceCount := 0 } a) :=
  congrArg Host.Outcome.next (if_pos up)

theorem exec_ack_discarded (down : s.trunk ≠ .up) (q a : Seq) : exec (.ack q a) s = .next s.discardFrame :=
  congrArg Host.Outcome.next (if_neg down)

end Ack

theorem State.not_up_of_waiting {s : State} (h : s.trunk = .joining ∨ s.trunk = .lost) : s.trunk ≠ .up := by
  rcases h with e | e <;> simp [e]

/-- R127, R144, R145: a good frame that is discarded completes one of which a part had arrived. -/
theorem State.discardFrame_of_waiting {s : State} (h : s.trunk = .joining ∨ s.trunk = .lost) :
    s.discardFrame = { s with partFrame := false } := by
  refine State.discardFrame_of_listening ?_
  rcases h with e | e <;> simp [e]

/-- Settles O38, by the trunk state and by what the ack passes. -/
theorem ackRemovesPassed : Obligations.AckRemovesPassed := by
  intro s q a
  refine ⟨fun down => ?_, fun waiting => ?_, fun up empty => ?_, fun o m rest up first =>
    ⟨fun outside => ?_, fun one_le le inside => ?_⟩⟩
  · rw [exec_ack_discarded (by simp [down]), State.discardFrame_of_down down]
  · rw [exec_ack_discarded (State.not_up_of_waiting waiting), State.discardFrame_of_waiting waiting]
  · exact (exec_ack up q a).trans (congrArg _ (State.acknowledge_of_empty (s := { s with silenceCount := 0 }) empty a))
  · exact (exec_ack up q a).trans
      (congrArg _ (State.acknowledge_of_none_passed (s := { s with silenceCount := 0 }) first outside))
  · rw [exec_ack up]
    exact ⟨_, rfl, State.acknowledge_silenceCount _ a,
      State.acknowledge_passes (s := { s with silenceCount := 0 }) first one_le le inside⟩

/-! ### Sequenced frames (R127, R132) -/

/-- Every sequenced message is received the same way; its owner alone differs. -/
theorem exec_command (m : Msg) (q a : Seq) (s : State) :
    ∃ deliver, exec (m.command q a) s = .next (s.receive q a deliver) := by
  cases m <;> exact ⟨_, rfl⟩

theorem State.receive_discards {s : State} (h : s.trunk ≠ .up) (q a : Seq) (deliver : State → State) :
    s.receive q a deliver = s.discardFrame := if_pos h

/-- R132: a frame out of sequence is used for its ack alone. -/
theorem State.receive_outOfOrder {s : State} (up : s.trunk = .up) {q : Seq} (ne : q ≠ s.expectedSeq) (a : Seq)
    (deliver : State → State) : s.receive q a deliver = State.acknowledge { s with silenceCount := 0 } a := by
  unfold State.receive
  rw [if_neg (by simp [up])]
  exact if_neg (by simpa using ne)

/-- Settles O39: reception is one for all kinds, so that the trunk state and the seq decide. -/
theorem outOfOrderDiscarded : Obligations.OutOfOrderDiscarded := by
  intro m q a s
  obtain ⟨deliver, received⟩ := exec_command m q a s
  rw [received]
  refine ⟨fun down => ?_, fun waiting => ?_, fun up ne => ?_⟩
  · rw [State.receive_discards (by simp [down]), State.discardFrame_of_down down]
  · rw [State.receive_discards (State.not_up_of_waiting waiting), State.discardFrame_of_waiting waiting]
  · rw [State.receive_outOfOrder up ne]

/-! ### The control tick (R134 to R136, R139) -/

/-- R126: a frame that joins the frame list is in it, in the place of one that it replaces or at the tail. -/
theorem mem_queueFrame (l : List Frame) (f : Frame) : f ∈ queueFrame l f := by
  unfold queueFrame
  split
  · rename_i replaced
    obtain ⟨g, mem, same⟩ := List.any_eq_true.mp replaced
    exact List.mem_map.mpr ⟨g, mem, if_pos same⟩
  · simp

section Tick

variable {s : State} {ms : Nat}

theorem exec_controlTick (timer : s.controlTimer = .running ms) : exec .controlTick s = .next s.controlTicked :=
  congrArg Host.Outcome.next (if_pos ⟨by rw [timer]; rfl, rfl⟩)

/-- R134: the timer starts again and the silence count rises, before the tick looks at the messages outstanding. -/
def State.ticked (s : State) : State :=
  { s with controlTimer := .running s.params.controlTick, silenceCount := s.silenceCount + 1 }

theorem State.controlTicked_up (up : s.trunk = .up) (heard : s.silenceCount + 1 < s.params.silenceLimit) :
    s.controlTicked = s.ticked.retryTick.finish := by
  have loud : ¬s.params.silenceLimit ≤ s.silenceCount + 1 := Nat.not_le.mpr heard
  simp only [State.controlTicked, up, State.upTick, loud, if_false]
  rw [← up]
  rfl

theorem State.retryTick_idle (empty : s.outstanding = []) :
    s.retryTick = State.idleAck { s with mark := false } := if_pos empty

theorem State.retryTick_marks (out : s.outstanding ≠ []) (unmarked : s.mark = false) :
    s.retryTick = State.idleAck { s with mark := true } := by
  rw [State.retryTick, if_neg out, if_pos unmarked]

theorem State.unmarked_idleAck (clear : s.Unmarked) : s.idleAck.Unmarked := by
  unfold State.idleAck
  dsimp only
  split <;> exact clear

/-- R136: the ACK that goes where nothing was sent since the last tick. -/
theorem State.idleAck_eq (s : State) : s.idleAck = { s with
    sentSinceTick := false,
    txFrames := if s.sentSinceTick then s.txFrames else queueFrame s.txFrames ⟨0, s.expectedSeq, .ack⟩ } := by
  unfold State.idleAck
  dsimp only
  split <;> rfl

end Tick

/-- Settles O40, by the trunk state. -/
theorem controlTickWork : Obligations.ControlTickWork := by
  intro s ms timer
  rw [exec_controlTick timer]
  refine ⟨fun joining => ?_, fun lost => ?_, fun up empty heard clear => ?_⟩
  · simp only [State.controlTicked, joining]
    rfl
  · simp only [State.controlTicked, lost]
    exact ⟨_, rfl, rfl, rfl, rfl, rfl, rfl, rfl, rfl, mem_queueFrame _ _⟩
  · rw [State.controlTicked_up up heard, State.retryTick_idle (s := s.ticked) empty,
      State.finish_of_unmarked _ (State.unmarked_idleAck (by exact clear)),
      State.idleAck_eq]
    rfl

/-! ### Mark and resend (R135) -/

/-- R126, R135: messages handed over one after the other join the frame list in that order, each with its own seq and
the expected seq as its ack. -/
theorem State.foldl_hand (l : List (Seq × Msg)) (s : State) :
    l.foldl (fun s m => s.hand m.1 (.msg m.2)) s = { s with
      txFrames := s.txFrames ++ l.map fun m => ⟨m.1, s.expectedSeq, .msg m.2⟩
      sentSinceTick := s.sentSinceTick || !l.isEmpty } := by
  induction l generalizing s with
  | nil => simp
  | cons m l ih =>
    rw [List.foldl_cons, ih]
    simp [State.hand]

/-- R135 step 3: every outstanding message goes again, in place of its waiting frame. -/
theorem State.resend_eq {s : State} (out : s.outstanding ≠ []) : s.resend = { s with
    txFrames := (s.txFrames.filter fun f => !frameCarries (s.outstanding.map Prod.fst) f)
      ++ s.outstanding.map fun m => ⟨m.1, s.expectedSeq, .msg m.2⟩
    sentSinceTick := true } := by
  rw [State.resend, State.foldl_hand]
  simp [State.dropFrames, out]

/-- R135 step 3: the channel behind a resend with its counts, before its entry is logged. -/
def State.resent (s : State) : State :=
  { s with
    txFrames := (s.txFrames.filter fun f => !frameCarries (s.outstanding.map Prod.fst) f)
      ++ s.outstanding.map fun m => ⟨m.1, s.expectedSeq, .msg m.2⟩
    sentSinceTick := true, mark := false, retryCount := s.retryCount + 1
    retransmissions := satSucc 65535 s.retransmissions }

theorem State.retryTick_resends {s : State} (out : s.outstanding ≠ []) (marked : s.mark = true)
    (within : s.retryCount + 1 ≤ s.params.retryLimit) :
    s.retryTick = (s.resent.log .tccRetransmit none none
      (detail2 (byteOf (s.retryCount + 1)) (byteOf s.outstanding.length))).idleAck := by
  have resends : s.retryTick = (State.retransmitAll { s with retryCount := s.retryCount + 1 }).idleAck := by
    rw [State.retryTick, if_neg out, if_neg (by simp [marked])]
    exact if_neg (Nat.not_lt.mpr within)
  rw [resends, State.retransmitAll, State.resend_eq (s := { s with retryCount := s.retryCount + 1 }) out]
  rfl

/-- Log entry 6: RETRANSMIT names the tick that resends. -/
theorem exec_retransmit {s : State} {ms : Nat} (timer : s.controlTimer = .running ms) (up : s.trunk = .up)
    (heard : s.silenceCount + 1 < s.params.silenceLimit) (out : s.outstanding ≠ []) (marked : s.mark = true)
    (within : s.retryCount + 1 ≤ s.params.retryLimit) : exec .retransmit s = .next s.controlTicked := by
  have within : s.retryCount < s.params.retryLimit := within
  refine congrArg Host.Outcome.next (if_pos ⟨by rw [timer]; rfl, ?_⟩)
  simp [State.retryNext, State.resendNext, State.silentNext, up, heard, out, marked, within]

/-- Settles O41, by the mark that the tick finds. -/
theorem outstandingResent : Obligations.OutstandingResent := by
  intro s ms timer up heard out clear
  refine ⟨fun unmarked => ?_, fun marked within => ?_⟩
  · rw [exec_controlTick timer, State.controlTicked_up up heard, State.retryTick_marks (s := s.ticked) out unmarked,
      State.finish_of_unmarked _ (State.unmarked_idleAck (by exact clear)), State.idleAck_eq]
    exact ⟨_, rfl, rfl, rfl, rfl, rfl⟩
  · rw [exec_retransmit timer up heard out marked within, exec_controlTick timer, State.controlTicked_up up heard,
      State.retryTick_resends (s := s.ticked) out marked within,
      State.finish_of_unmarked _ (State.unmarked_idleAck (by exact clear)), State.idleAck_eq]
    refine ⟨_, rfl, rfl, rfl, rfl, rfl, rfl, rfl, rfl, ?_⟩
    exact congrArg (Option.map _) (State.getLast?_log _ _ _ _ _)

end Sys2Proof.Machine
end

section
/-! SUPPORT. Sys2Proof/Proofs/PortForms.lean: R148, R149, R160, R165: a form that a port's record has by itself is kept
by every step, where the changes of a record keep it; the notice queues and the void transactions are two such forms. -/

namespace Sys2Proof.Machine

open Sys2Proof

/-! ### Forms of a port record -/

/-- A form of a port record that each change of the record keeps. -/
structure PortForm (Q : Port → Prop) : Prop where
  reset : ∀ steer present : Bool, Q (Port.atReset steer present)
  /-- R160: a present port is noticed. -/
  noticed : ∀ (p : Port) (n : Notice), p.link ≠ .absent → Q p → Q { p with notices := queueNotice p.notices n }
  /-- R161: the head of the notice queue is read. -/
  read : ∀ p : Port, Q p → Q { p with notices := p.notices.tail }
  /-- R151, R154, R158: the slots of a present port change. -/
  slots : ∀ (p : Port) (l : Link), p.link ≠ .absent → l ≠ .absent → Q p → Q { p with link := l }
  /-- R151: a present port rejects a request. -/
  rejects : ∀ p : Port, p.link ≠ .absent → Q p → Q { p with rejected := true }
  /-- R161: READ_STATUS clears the rejected flag. -/
  forgets : ∀ p : Port, Q p → Q { p with rejected := false }
  /-- R171, R172: the log cursor moves. -/
  cursor : ∀ (p : Port) (c : Half), Q p → Q { p with cursor := c }
  /-- R164: a host arrives. -/
  arrives : ∀ (p : Port) (c : Half), Q p → Q { p with link := .ready, notices := [], rejected := false, cursor := c }
  /-- R165: the host departs. -/
  departs : ∀ p : Port, Q p → Q p.depart
  /-- R149: a command byte is taken. -/
  command : ∀ (p : Port) (code : Byte) (frame out : List Byte), Q p →
    Q { p with transaction := some ⟨code, p.link = .absent, frame, p.link = .absent⟩, shiftOut := out }
  /-- R149: a transaction is over. -/
  ended : ∀ (p : Port) (out : List Byte), Q p → Q { p with transaction := none, shiftOut := out }

/-- Every port's record has the form. -/
def State.PortsAll (Q : Port → Prop) (s : State) : Prop := ∀ h, Q (s.port h)

theorem State.PortsAll.congr {Q : Port → Prop} {s t : State} (h : s.PortsAll Q) (e : t.ports = s.ports) :
    t.PortsAll Q := by
  intro g
  rw [State.port, e]
  exact h g

theorem State.PortsAll.modPort {Q : Port → Prop} {s : State} (h : s.PortsAll Q) (g : PortId) (f : Port → Port)
    (hf : Q (s.port g) → Q (f (s.port g))) : (s.modPort g f).PortsAll Q := by
  intro j
  rw [State.port_modPort]
  split
  · exact hf (h g)
  · exact h j

section

variable {Q : Port → Prop} {s : State}

theorem State.PortsAll.discardFrame (h : s.PortsAll Q) : s.discardFrame.PortsAll Q := by
  unfold State.discardFrame
  split <;> exact h

theorem State.PortsAll.idleAck (h : s.PortsAll Q) : s.idleAck.PortsAll Q := by
  unfold State.idleAck
  dsimp only
  split <;> exact h

theorem State.PortsAll.takeRequest (h : s.PortsAll Q) (g : PortId) (kind : ReqKind) {act : List Byte → State}
    (owner : ∀ b, (act b).PortsAll Q) : (s.takeRequest g kind act).PortsAll Q := by
  unfold State.takeRequest
  split
  · exact h
  · exact owner _

end

/-- R101: what follows a write touches no port. -/
theorem ParamId.afterWrite_ports (id : ParamId) (old : Params) (s : State) : (id.afterWrite old s).ports = s.ports := by
  unfold ParamId.afterWrite
  split
  · unfold State.clampStrikes
    split <;> rfl
  · rfl
  · rfl
  · rfl

/-- The shared work keeps what speaks of the ports alone and stands when a notice is placed. -/
theorem kept_of_ports {P : State → Prop} (congr : ∀ s t : State, t.ports = s.ports → P s → P t)
    (notify : ∀ (s : State) (h : PortId) (n : Notice), P s → P (s.notify h n)) : Kept P where
  rest s _ _ _ _ _ _ _ _ _ _ _ _ _ := congr s _ rfl
  place s _ _ := congr s _ rfl
  out s _ _ _ _ := congr s _ rfl
  passed s _ _ := congr s _ rfl
  dropped s := congr s _ rfl
  part s _ _ := congr s _ rfl
  log s _ _ _ _ := congr s _ rfl
  notify := notify
  lane s _ _ _ := congr s _ rfl
  moveLane s _ _ _ := congr s _ rfl
  freeLane _ s _ := congr s _ rfl
  rerun s _ := congr s _ rfl
  requestDwell s i p := congr s _ (s.requestDwell_rest i p).2.2.2.2.2
  grantOne s t e := congr s t (State.grantOne_rest e).2.2.2.2.2
  lanesOffline s := congr s _ rfl

namespace PortForm

section

variable {Q : Port → Prop} {s : State} {p : Port}

theorem kept (f : PortForm Q) : Kept (State.PortsAll Q) :=
  kept_of_ports (fun _ _ e h => h.congr e) fun s g n h => by
    by_cases absent : (s.port g).link = .absent
    · rw [State.notify_of_absent s g n absent]
      exact h
    · rw [State.notify_of_present s g n absent]
      exact h.modPort g _ (f.noticed _ n absent)

/-! ### Transactions (R149 to R153, R158, R161) -/

/-- R151: a request frame is judged: the slots are filled, the frame is rejected, or nothing is taken. -/
theorem writeRequest (f : PortForm Q) (h : Q p) (loading : Bool) (bytes : List Byte) :
    Q (p.writeRequest loading bytes) := by
  have judged (steering : Bool) (r : ReqFrame) : judgeRequest loading steering r ≠ .absent := by
    unfold judgeRequest
    split
    · exact Link.noConfusion
    · split
      · exact Link.noConfusion
      · split
        · exact Link.noConfusion
        · split <;> exact Link.noConfusion
  unfold Port.writeRequest
  split
  · exact h
  · rename_i ready
    have present : p.link ≠ .absent := by rw [ready]; exact Link.noConfusion
    split
    · exact f.slots p _ present (judged _ _) h
    · exact f.rejects p present h
  · rename_i working
    exact f.rejects p (by rw [working]; exact Link.noConfusion) h
  · rename_i replied
    exact f.rejects p (by rw [replied]; exact Link.noConfusion) h

theorem replyRead (f : PortForm Q) (h : Q p) (n : Nat) (t : Transaction) : Q (p.replyRead n t) := by
  unfold Port.replyRead
  split
  · rename_i replied
    split
    · exact f.slots p _ (by rw [replied]; exact Link.noConfusion) Link.noConfusion h
    · exact h
  · exact h

theorem noticeRead (f : PortForm Q) (h : Q p) (n : Nat) (t : Transaction) : Q (p.noticeRead n t) := by
  unfold Port.noticeRead
  split
  · exact f.read p h
  · exact h

theorem takeCommand (f : PortForm Q) (h : s.PortsAll Q) (g : PortId) (code : Byte) :
    (s.takeCommand g code).PortsAll Q :=
  h.modPort g _ (f.command _ code _ _)

/-- R149: a transaction's end has an effect that keeps the form. -/
theorem endTransaction (f : PortForm Q) (h : s.PortsAll Q) (g : PortId) (code : Byte) (n : Nat)
    (frame : Port → Transaction → List Byte) {act : Port → Transaction → Port} (effect : ∀ p t, Q p → Q (act p t)) :
    (s.endTransaction g code n frame act).PortsAll Q := by
  have begun : (if (s.port g).transaction = none then s.takeCommand g code else s).PortsAll Q := by
    split
    · exact f.takeCommand h g code
    · exact h
  unfold State.endTransaction
  dsimp only
  split
  · exact begun
  · rename_i t _
    split
    · exact begun
    · refine begun.modPort g _ fun q => f.ended _ _ ?_
      split
      · exact q
      · exact effect _ t q

/-! ### Requests (R154, R172) -/

theorem reply (f : PortForm Q) (h : s.PortsAll Q) (g : PortId) (st : Status) (rs : List Byte) :
    (s.reply g st rs).PortsAll Q := by
  refine h.modPort g _ fun q => ?_
  split
  · rename_i r working
    exact f.slots _ _ (by rw [working]; exact Link.noConfusion) Link.noConfusion q
  · exact q

theorem takeOpen (f : PortForm Q) (h : s.PortsAll Q) (g : PortId) (tag : Byte) (b : List Byte) :
    (s.takeOpen g tag b).PortsAll Q := by
  unfold State.takeOpen
  split
  · exact f.reply h g _ _
  · rename_i o _
    split
    · exact f.reply h g _ _
    · have scanned : (s.appendEntry g tag o).scan.PortsAll Q := f.kept.scan (h.congr rfl)
      refine f.kept.finish ?_
      unfold State.replyOpen
      split <;> exact f.reply scanned g _ _

theorem takeClose (f : PortForm Q) (h : s.PortsAll Q) (g : PortId) (b : List Byte) : (s.takeClose g b).PortsAll Q := by
  unfold State.takeClose State.closeSlot
  split
  · split
    · exact f.reply h g _ _
    · split
      · exact f.reply h g _ _
      · split
        · exact f.reply h g _ _
        · split
          · exact f.reply h g _ _
          · exact f.kept.finish (f.reply (f.kept.dropEntries (f.kept.beginClose h _ _) _) g _ _)
          · exact f.kept.finish (f.reply (f.kept.beginClose h _ _) g _ _)
  · exact f.reply h g _ _

theorem takeWithdraw (f : PortForm Q) (h : s.PortsAll Q) (g : PortId) (b : List Byte) :
    (s.takeWithdraw g b).PortsAll Q := by
  unfold State.takeWithdraw
  split
  · split
    · exact f.reply h g _ _
    · exact f.kept.finish (f.reply (f.kept.withdrawEntry h _) g _ _)
  · exact f.reply h g _ _

theorem takeCircuitStatus (f : PortForm Q) (h : s.PortsAll Q) (g : PortId) (b : List Byte) :
    (s.takeCircuitStatus g b).PortsAll Q := by
  unfold State.takeCircuitStatus
  split
  · split <;> exact f.reply h g _ _
  · exact f.reply h g _ _

theorem takeLaneStatus (f : PortForm Q) (h : s.PortsAll Q) (g : PortId) (b : List Byte) :
    (s.takeLaneStatus g b).PortsAll Q := by
  unfold State.takeLaneStatus
  split
  · split <;> exact f.reply h g _ _
  · exact f.reply h g _ _

theorem takeReadLog (f : PortForm Q) (h : s.PortsAll Q) (g : PortId) (b : List Byte) :
    (s.takeReadLog g b).PortsAll Q := by
  have moved (c : Half) : (s.setCursor g c).PortsAll Q := h.modPort g _ (f.cursor _ c)
  unfold State.takeReadLog State.readLog
  split
  · split
    · dsimp only
      split <;> exact f.reply (moved _) g _ _
    · exact f.reply h g _ _
  · exact f.reply h g _ _

theorem takeReadParam (f : PortForm Q) (h : s.PortsAll Q) (g : PortId) (b : List Byte) :
    (s.takeReadParam g b).PortsAll Q := by
  unfold State.takeReadParam
  split
  · split <;> exact f.reply h g _ _
  · exact f.reply h g _ _

theorem takeWriteParam (f : PortForm Q) (h : s.PortsAll Q) (g : PortId) (b : List Byte) :
    (s.takeWriteParam g b).PortsAll Q := by
  have written (id : ParamId) (v : Mask) :
      (id.afterWrite s.params { s with params := s.params.write id v }).PortsAll Q :=
    State.PortsAll.congr (s := { s with params := s.params.write id v }) h (id.afterWrite_ports _ _)
  unfold State.takeWriteParam State.writeParam
  split
  · split
    · exact f.reply h g _ _
    · split
      · exact f.reply h g _ _
      · exact f.kept.finish (f.reply (written _ _) g _ _)
  · exact f.reply h g _ _

theorem takeLane1 (f : PortForm Q) (h : s.PortsAll Q) (g : PortId) {act : LaneId → State}
    (owner : ∀ i, (act i).PortsAll Q) (b : List Byte) : (s.takeLane1 g act b).PortsAll Q := by
  unfold State.takeLane1
  split
  · split
    · exact f.reply h g _ _
    · exact f.kept.finish (f.reply (owner _) g _ _)
  · exact f.reply h g _ _

theorem restartByHost (f : PortForm Q) (h : s.PortsAll Q) : s.restartByHost.PortsAll Q := by
  unfold State.restartByHost
  split
  · exact f.kept.goLost h _
  · exact h
  · exact h
  · exact h

/-! ### The line (R127, R132, R140, R143) -/

theorem receive (f : PortForm Q) (h : s.PortsAll Q) (q a : Seq) {deliver : State → State}
    (owner : ∀ u : State, u.PortsAll Q → (deliver u).PortsAll Q) : (s.receive q a deliver).PortsAll Q := by
  have acked : (State.acknowledge { s with silenceCount := 0 } a).PortsAll Q :=
    f.kept.acknowledge (s := { s with silenceCount := 0 }) h a
  unfold State.receive
  split
  · exact h.discardFrame
  · dsimp only
    split
    · exact f.kept.finish (owner _ acked)
    · exact acked

theorem goUp (f : PortForm Q) (h : s.PortsAll Q) : s.goUp.PortsAll Q := by
  have changes (u : State) (hu : u.PortsAll Q) : u.sendFenceChanges.PortsAll Q := by
    refine f.kept.fenceChanges (f.kept.foldl _ (fun v i hv => ?_) _ hu) _
    unfold State.sendFenceChange
    split <;> exact f.kept.send hv _
  have rebuilt (u : State) (hu : u.PortsAll Q) : u.rebuildLanes.PortsAll Q := by
    obtain ⟨_, _, e, -⟩ := u.rebuildLanes_eq
    rw [e]
    exact hu
  have joined : (s.openSession.sendJoin true true).PortsAll Q := h
  exact f.kept.notifyAll (rebuilt _ (changes _ (f.kept.log _ _ _ _ _ joined))) _

theorem receiveJoin (f : PortForm Q) (h : s.PortsAll Q) (j : JoinInfo) : (s.receiveJoin j).PortsAll Q := by
  have heard : State.PortsAll Q
      (State.received { s with peerHeard := true, peerEnable := some j.enable, peerFences := some j.fences }) := h
  have silenced : (State.received { s with silenceCount := 0 }).PortsAll Q := h
  unfold State.receiveJoin
  split
  · split
    · exact h.discardFrame
    · unfold State.joinWhileJoining
      split
      · split <;> exact h
      · dsimp only
        split
        · exact f.kept.finish (f.goUp heard)
        · exact h
  · unfold State.joinUp
    dsimp only
    split
    · exact f.kept.finish (f.kept.goLost silenced _)
    · split
      · exact h
      · split
        · exact h
        · exact f.kept.finish (f.kept.goLost silenced _)
  · exact h
  · exact h.discardFrame

/-! ### Ticks (R97, R134) -/

theorem retransmitAll (f : PortForm Q) (h : s.PortsAll Q) : s.retransmitAll.PortsAll Q := by
  have resent : s.resend.PortsAll Q := f.kept.foldl _ (fun _ _ hv => f.kept.hand hv _ _) _ (f.kept.dropFrames h _)
  exact f.kept.log _ _ _ _ _ resent

theorem upTick (f : PortForm Q) (h : s.PortsAll Q) : s.upTick.PortsAll Q := by
  have counted : State.PortsAll Q { s with silenceCount := s.silenceCount + 1 } := h
  have marked (b : Bool) : State.PortsAll Q { s with silenceCount := s.silenceCount + 1, mark := b } := h
  have retried : State.PortsAll Q
      { s with silenceCount := s.silenceCount + 1, retryCount := s.retryCount + 1 } := h
  unfold State.upTick State.retryTick
  dsimp only
  split
  · exact f.kept.goLost counted _
  · split
    · exact State.PortsAll.idleAck (marked false)
    · split
      · exact State.PortsAll.idleAck (marked true)
      · split
        · exact f.kept.goLost retried _
        · exact (f.retransmitAll retried).idleAck

theorem controlTickIf (f : PortForm Q) (h : s.PortsAll Q) (due : Bool) : (s.controlTickIf due).PortsAll Q := by
  have timed : State.PortsAll Q { s with controlTimer := .running s.params.controlTick } := h
  unfold State.controlTickIf State.controlTicked
  split
  · dsimp only
    split
    · exact timed
    · exact timed
    · exact f.kept.finish (f.upTick timed)
    · exact timed
  · exact h

theorem sweepTickIf (f : PortForm Q) (h : s.PortsAll Q) (due : Bool) : (s.sweepTickIf due).PortsAll Q := by
  have asked (u : State) (i : LaneId) (hu : u.PortsAll Q) : (u.healthRequest i).PortsAll Q := by
    unfold State.healthRequest
    split
    · exact hu
    · exact f.kept.requestDwell u i _ hu
  have swept (u : State) (hu : u.PortsAll Q) : u.sweep.PortsAll Q := by
    have all := f.kept.foldl _ asked u.activeLanes hu
    unfold State.sweep
    dsimp only
    split <;> exact all
  have begun : s.sweepBegin.PortsAll Q := h
  unfold State.sweepTickIf
  split
  · exact f.kept.finish
      (swept _ (f.kept.countPatience (f.kept.countSeeking (f.kept.reportGrowth (f.kept.countAges begun)))))
  · exact h

/-! ### Dwell results (R75) -/

theorem deliverResult (f : PortForm Q) (h : s.PortsAll Q) (d : Dwell) (o : DwellOutcome) :
    (s.deliverResult d o).PortsAll Q := by
  have succeeds (best : PresetId) (figure : Byte) : (s.trainingSucceeds d.lane best figure).PortsAll Q := by
    have told : ((s.modLane d.lane (Lane.confirmed s.params best figure)).sendTrained d.lane true).PortsAll Q :=
      sendTrained_keeps f.kept (u := s.modLane d.lane (Lane.confirmed s.params best figure)) h d.lane true
    unfold State.trainingSucceeds
    dsimp only
    split
    · exact f.kept.activate told _
    · exact told
  unfold State.deliverResult
  split
  · unfold State.trainResult
    split
    · exact h
    · split
      · unfold State.confirmResult
        split
        · exact succeeds _ _
        · split
          · exact f.kept.restartAttempt h _ _
          · exact f.kept.trainingFails h _ _
      · exact f.kept.requestDwell _ _ _ (h.congr rfl)
  · exact f.kept.healthResult h _ _

theorem dwellEnds (f : PortForm Q) (h : s.PortsAll Q) (u : UnitId) (d : Dwell) (o : DwellOutcome) :
    (s.dwellEnds u d o).PortsAll Q := by
  have freed : (State.grantDue { s with units := s.units.set u none }).PortsAll Q := h
  unfold State.dwellEnds
  dsimp only
  split
  · exact f.kept.finish (f.deliverResult freed d o)
  · exact f.kept.finish freed

/-! ### Hosts and the load (R164, R165, R177, R180) -/

theorem depart (f : PortForm Q) (h : s.PortsAll Q) (g : PortId) : (s.depart g).PortsAll Q := by
  have gone : (s.modPort g Port.depart).PortsAll Q := h.modPort g _ (f.departs _)
  exact f.kept.finish (f.kept.dropEntries (f.kept.foldl _ (fun _ _ hu => f.kept.beginClose hu _ _) _ gone) _)

theorem endLoad (f : PortForm Q) (h : s.PortsAll Q) (image : List Byte) : (s.endLoad image).PortsAll Q := by
  have logged (l : List (LogKind × Half)) (u : State) (hu : u.PortsAll Q) :
      (l.foldl (fun s e => s.log e.1 none none e.2) u).PortsAll Q :=
    f.kept.foldl _ (fun u _ hu => f.kept.log u _ _ _ _ hu) l hu
  intro g
  have before := logged (loadImage image).entries { s with params := (loadImage image).params } h g
  unfold State.endLoad State.mapPorts State.port
  dsimp only [State.beginJoining]
  rw [Table.get_map]
  exact f.cursor _ _ before

theorem afterReset (f : PortForm Q) (side : Side) (steer present : Table 6 Bool) :
    (State.afterReset side steer present).PortsAll Q := by
  intro g
  have record : (State.afterReset side steer present).port g = Port.atReset (steer.get g) (present.get g) := by
    simp [State.afterReset, State.port, Table.get, indexes]
  rw [record]
  exact f.reset _ _

/-! ### Every command -/

theorem exec_keeps (f : PortForm Q) (h : s.PortsAll Q) (c : Instr) {t : State} (e : exec c s = .next t) :
    t.PortsAll Q := by
  have k := f.kept
  cases c with
  | deviceReset side steer present => cases e; exact f.afterReset side steer present
  | configLoadEnd image =>
    cases e
    split
    · exact f.endLoad h image
    · exact h
  | hostArrival g =>
    cases e
    split
    · exact h
    · exact h.modPort g _ (f.arrives _ _)
  | hostDeparture g =>
    cases e
    split
    · exact f.depart h g
    · exact h
  | commandByte g code => cases e; exact f.takeCommand h g code
  | writeRequest g bytes => cases e; exact f.endTransaction h g _ _ _ fun _ _ q => f.writeRequest q _ _
  | readReply g n => cases e; exact f.endTransaction h g _ _ _ fun _ t q => f.replyRead q n t
  | readNotice g n => cases e; exact f.endTransaction h g _ _ _ fun _ t q => f.noticeRead q n t
  | readStatus g n => cases e; exact f.endTransaction h g _ _ _ fun p _ q => f.forgets p q
  | unknownCommand g code n =>
    cases e
    split
    · exact h
    · exact f.endTransaction h g _ _ _ fun _ _ q => q
  | openCircuit g => cases e; exact h.takeRequest g _ (f.takeOpen h g _)
  | closeRequest g => cases e; exact h.takeRequest g _ (f.takeClose h g)
  | withdraw g => cases e; exact h.takeRequest g _ (f.takeWithdraw h g)
  | circuitStatus g => cases e; exact h.takeRequest g _ (f.takeCircuitStatus h g)
  | laneStatus g => cases e; exact h.takeRequest g _ (f.takeLaneStatus h g)
  | trunkStatus g => cases e; exact h.takeRequest g _ fun _ => f.reply h g _ _
  | readLog g => cases e; exact h.takeRequest g _ (f.takeReadLog h g)
  | readParam g => cases e; exact h.takeRequest g _ (f.takeReadParam h g)
  | writeParam g => cases e; exact h.takeRequest g _ (f.takeWriteParam h g)
  | fenceLane g => cases e; exact h.takeRequest g _ (f.takeLane1 h g (k.fenceByHost h))
  | unfenceLane g => cases e; exact h.takeRequest g _ (f.takeLane1 h g (k.unfenceByHost h))
  | restartTrunk g => cases e; exact h.takeRequest g _ fun _ => k.finish (f.reply (f.restartByHost h) g _ _)
  | badFrame => cases e; split <;> exact h
  | join _ _ j | joinWhileUp _ _ j => cases e; exact f.receiveJoin h j
  | ack _ a =>
    cases e
    split
    · exact k.acknowledge (s := { s with silenceCount := 0 }) h a
    · exact h.discardFrame
  | setup => cases e; exact f.receive h _ _ fun _ u => k.takeSetup u _ _ _ _ _ _ _
  | accept => cases e; exact f.receive h _ _ fun _ u => k.takeAccept u _ _
  | refuse => cases e; exact f.receive h _ _ fun _ u => k.takeRefuse u _ _ _
  | trained => cases e; exact f.receive h _ _ fun _ u => k.takeTrained u _ _ _
  | laneFail => cases e; exact f.receive h _ _ fun _ u => k.takeLaneFail u _ _
  | amend => cases e; exact f.receive h _ _ fun _ u => k.takeAmend u _ _ _
  | amendReply => cases e; exact f.receive h _ _ fun _ u => k.takeAmendReply u _ _ _
  | close => cases e; exact f.receive h _ _ fun _ u => k.takePeerClose u _ _
  | closed => cases e; exact f.receive h _ _ fun _ u => k.takeClosed u _
  | fence => cases e; exact f.receive h _ _ fun _ u => k.takeFence u _
  | unfence => cases e; exact f.receive h _ _ fun _ u => k.takeUnfence u _
  | frameTransmit => cases e; unfold State.beginFrame; split <;> exact h
  | controlTick | retransmit | tccRetry | peerSilent => cases e; exact f.controlTickIf h _
  | sweepTick | quarantineRelease | openExpired | seekExhausted => cases e; exact f.sweepTickIf h _
  | dwellResult u o =>
    cases e
    split
    · exact h
    · exact f.dwellEnds h u _ o
  | lossOfLock i =>
    cases e
    split
    · exact k.finish (k.declareFailing h _ _ _)
    · exact h

end

end PortForm

/-! ### The two forms -/

/-- R148, R160, R165: the notice queue is in form, and an ABSENT port holds no notice and no rejected flag. -/
theorem portForm_notices : PortForm fun p =>
    noticesKept p.notices ∧ (p.link = .absent → p.notices = [] ∧ p.rejected = false) where
  reset _ _ := ⟨⟨Nat.zero_le _, fun e => nomatch e⟩, fun _ => ⟨rfl, rfl⟩⟩
  noticed p n present h := ⟨noticesKept_queueNotice p.notices n h.1, fun absent => absurd absent present⟩
  read p h := by
    obtain ⟨⟨few, -⟩, empty⟩ := h
    have fewer : p.notices.tail.length ≤ 15 := by rw [List.length_tail]; omega
    refine ⟨⟨fewer.trans (by decide), fun full => absurd full (Nat.lt_succ_of_le fewer).ne⟩, fun absent => ?_⟩
    obtain ⟨none, clear⟩ := empty absent
    exact ⟨congrArg List.tail none, clear⟩
  slots _ _ _ present h := ⟨h.1, fun absent => absurd absent present⟩
  rejects _ present h := ⟨h.1, fun absent => absurd absent present⟩
  forgets _ h := ⟨h.1, fun absent => ⟨(h.2 absent).1, rfl⟩⟩
  cursor _ _ h := h
  arrives _ _ _ := ⟨⟨Nat.zero_le _, fun e => nomatch e⟩, fun _ => ⟨rfl, rfl⟩⟩
  departs _ _ := ⟨⟨Nat.zero_le _, fun e => nomatch e⟩, fun _ => ⟨rfl, rfl⟩⟩
  command _ _ _ _ h := h
  ended _ _ h := h

/-- R149, R165: a transaction whose command byte was taken while the port was ABSENT is void. -/
theorem portForm_void : PortForm fun p => ∀ tr, p.transaction = some tr → tr.absent = true → tr.void = true where
  reset _ _ _ e := nomatch e
  noticed _ _ _ h := h
  read _ h := h
  slots _ _ _ _ h := h
  rejects _ _ h := h
  forgets _ h := h
  cursor _ _ h := h
  arrives _ _ h := h
  departs p _ tr e _ := by
    obtain ⟨_, -, rfl⟩ := Option.map_eq_some_iff.mp e
    rfl
  command _ _ _ _ _ _ e absent := by
    cases e
    exact absent
  ended _ _ _ _ e := nomatch e

/-- Settles O10: both are forms that each port's record has by itself. -/
theorem stepKeepsPorts : Obligations.StepKeepsPorts := by
  intro s t e
  unfold step at e
  split at e
  · cases e
    exact ⟨id, id⟩
  · rename_i c rest _
    let front : State := { s with pending := rest }
    exact ⟨fun h => portForm_notices.exec_keeps (s := front) h c e,
      fun h => portForm_void.exec_keeps (s := front) h c e⟩

end Sys2Proof.Machine
end

section
/-! SUPPORT. Sys2Proof/Proofs/Transactions.lean: what a port shows and shifts out (R149, R150, R158, R161, R162), how
its transactions end (R151, R153, R165), and what becomes of a notice (R160). -/

namespace Sys2Proof.Machine

open Sys2Proof

/-! ### What a port shows (R150, R162) -/

theorem Link.code_mem (l : Link) : l.code ∈ ([0, 1, 2, 3] : List Byte) := by
  cases l <;> simp [Link.code]

/-- R150: a code of the two lowest bits and three flags above them are read back from the byte they make. -/
theorem flags_apart : ∀ code ∈ ([0, 1, 2, 3] : List Byte), ∀ noticed rejected loading : Bool,
    ∀ b, b = code ||| bitAt 2 noticed ||| bitAt 3 rejected ||| bitAt 4 loading →
      b.toNat % 4 = code.toNat ∧ b.getLsbD 2 = noticed ∧ b.getLsbD 3 = rejected ∧ b.getLsbD 4 = loading
        ∧ b.getLsbD 5 = false ∧ b.getLsbD 6 = false ∧ b.getLsbD 7 = false := by
  simp only [forall_eq]
  decide

/-- Settles O15: the status byte is such a byte. -/
theorem statusByteLayout : Obligations.StatusByteLayout := by
  intro s h
  obtain ⟨state, noticed, flags⟩ := flags_apart _ (s.port h).link.code_mem (!(s.port h).notices.isEmpty)
    (s.port h).rejected s.loading (s.statusByte h) rfl
  refine ⟨?_, ?_, flags⟩
  · rw [state]
    cases (s.port h).link <;> rfl
  · rw [noticed]
    simp

/-- Settles O16, by the port's state. -/
theorem attentionLine : Obligations.AttentionLine := by
  intro s h kept
  have empty := (kept h).2
  unfold Port.attn
  cases link : (s.port h).link with
  | absent => simp [(empty link).1]
  | ready => simp
  | working r => simp
  | replied r => simp

/-! ### The bytes shifted out (R149) -/

@[simp] theorem length_shifted (frame : List Byte) (n : Nat) : (shifted frame n).length = n := by
  simp only [shifted, List.length_append, List.length_take, List.length_replicate]
  omega

@[simp] theorem shifted_nil (n : Nat) : shifted [] n = List.replicate n 0 := by
  simp [shifted]

namespace Transaction

@[simp] theorem length_out (t : Transaction) (frame : List Byte) (n : Nat) : (t.out frame n).length = n := by
  unfold Transaction.out
  split
  · simp [absentBytes]
  · exact length_shifted frame n

theorem out_of_present {t : Transaction} (present : t.absent = false) (frame : List Byte) (n : Nat) :
    t.out frame n = shifted frame n := by
  simp [Transaction.out, present]

/-- R149: an undefined command code shifts out as a present port does. -/
theorem out_of_undefined {t : Transaction} (undefined : cmdDefined t.code = false) (frame : List Byte) (n : Nat) :
    t.out frame n = shifted frame n := by
  simp [Transaction.out, undefined]

end Transaction

/-! ### The command byte (R149) -/

/-- Settles O17: the frame is the one that the port's record fixes. -/
theorem commandByteFixesFrame : Obligations.CommandByteFixesFrame := by
  intro s h code
  refine ⟨(s.port h).fixedFrame code, congrArg Host.Outcome.next (s.modPort_congr h rfl), ?_, ?_, ?_, ?_, ?_⟩
  · rintro rfl r replied
    simp [Port.fixedFrame, cmdReadReply, replied]
  · rintro rfl other
    rw [Port.fixedFrame, cmdReadReply, if_pos rfl]
    split
    · rename_i r replied
      exact absurd replied (other r)
    · rfl
  · rintro rfl n rest held
    simp [Port.fixedFrame, cmdReadReply, cmdReadNotice, held]
  · rintro rfl none
    simp [Port.fixedFrame, cmdReadReply, cmdReadNotice, none]
  · rintro rfl
    simp [Port.fixedFrame, cmdReadReply, cmdReadNotice, cmdReadStatus, Port.noticeCount]

/-! ### Requests judged (R151, R153) -/

section Judged

variable {p : Port} {bytes : List Byte} {f : ReqFrame} {k : ReqKind}

/-- R151: the end of a WRITE_REQUEST changes the port's slots and its rejected flag alone. -/
theorem Port.writeRequest_eq (p : Port) (loading : Bool) (bytes : List Byte) : p.writeRequest loading bytes
    = { p with link := (p.writeRequest loading bytes).link, rejected := (p.writeRequest loading bytes).rejected } := by
  unfold Port.writeRequest
  split
  · rfl
  · split <;> rfl
  · rfl
  · rfl

theorem Port.writeRequest_absent (absent : p.link = .absent) (loading : Bool) : p.writeRequest loading bytes = p := by
  simp [Port.writeRequest, absent]

theorem Port.writeRequest_busy (busy : (∃ r, p.link = .working r) ∨ ∃ r, p.link = .replied r) (loading : Bool) :
    p.writeRequest loading bytes = { p with rejected := true } := by
  rcases busy with ⟨r, link⟩ | ⟨r, link⟩ <;> simp [Port.writeRequest, link]

theorem Port.writeRequest_incomplete (ready : p.link = .ready) (cut : completeFrame bytes = none) (loading : Bool) :
    p.writeRequest loading bytes = { p with rejected := true } := by
  simp [Port.writeRequest, ready, cut]

theorem Port.writeRequest_complete (ready : p.link = .ready) (whole : completeFrame bytes = some f) (loading : Bool) :
    p.writeRequest loading bytes = { p with link := judgeRequest loading p.steering f } := by
  simp [Port.writeRequest, ready, whole]

theorem judgeRequest_loading (steering : Bool) (f : ReqFrame) :
    judgeRequest true steering f = .replied ⟨f.kind, f.tag, .notReady, []⟩ := rfl

/-- R153: a kind of no request, or a length that is not the kind's. -/
theorem judgeRequest_misfit (misfit : ∀ k, reqKindOf f.kind = some k → f.length ≠ k.length) (steering : Bool) :
    judgeRequest false steering f = .replied ⟨f.kind, f.tag, .badRequest, []⟩ := by
  cases kind : reqKindOf f.kind with
  | none => simp [judgeRequest, kind]
  | some k => simp [judgeRequest, kind, misfit k kind]

theorem judgeRequest_forbidden (kind : reqKindOf f.kind = some k) (fits : f.length = k.length)
    (only : k.steeringOnly = true) : judgeRequest false false f = .replied ⟨f.kind, f.tag, .notPermitted, []⟩ := by
  simp [judgeRequest, kind, fits, only]

theorem judgeRequest_dispatched {steering : Bool} (kind : reqKindOf f.kind = some k) (fits : f.length = k.length)
    (allowed : k.steeringOnly = false ∨ steering = true) :
    judgeRequest false steering f = .working ⟨k, f.tag, f.params⟩ := by
  rcases allowed with open_ | steers
  · simp [judgeRequest, kind, fits, open_]
  · simp [judgeRequest, kind, fits, steers]

end Judged

/-! ### Transactions that end -/

section Ends

variable {s : State} {h : PortId} {tr : Transaction}

/-- R151: the end of a WRITE_REQUEST transaction. -/
theorem exec_writeRequest (held : (s.port h).transaction = some tr) (code : tr.code = 0x5A) (bytes : List Byte) :
    exec (.writeRequest h bytes) s = .next (s.modPort h fun p =>
      { (if tr.void then p else p.writeRequest s.loading bytes) with
        transaction := none, shiftOut := p.shiftOut ++ tr.out [] bytes.length }) :=
  congrArg Host.Outcome.next (s.endTransaction_of h _ _ _ _ tr held code)

/-- R158: the end of a READ_REPLY transaction. -/
theorem exec_readReply (held : (s.port h).transaction = some tr) (code : tr.code = 0x5B) (n : Nat) :
    exec (.readReply h n) s = .next (s.modPort h fun p =>
      { (if tr.void then p else p.replyRead n tr) with
        transaction := none, shiftOut := p.shiftOut ++ tr.out tr.frame n }) :=
  congrArg Host.Outcome.next (s.endTransaction_of h _ _ _ _ tr held code)

/-- R161: the end of a READ_NOTICE transaction. -/
theorem exec_readNotice (held : (s.port h).transaction = some tr) (code : tr.code = 0x5C) (n : Nat) :
    exec (.readNotice h n) s = .next (s.modPort h fun p =>
      { (if tr.void then p else p.noticeRead n tr) with
        transaction := none, shiftOut := p.shiftOut ++ tr.out tr.frame n }) :=
  congrArg Host.Outcome.next (s.endTransaction_of h _ _ _ _ tr held code)

/-- R161: the end of a READ_STATUS transaction. -/
theorem exec_readStatus (held : (s.port h).transaction = some tr) (code : tr.code = 0x5D) (n : Nat) :
    exec (.readStatus h n) s = .next (s.modPort h fun p =>
      { (if tr.void then p else { p with rejected := false }) with
        transaction := none, shiftOut := p.shiftOut ++ tr.out (statusFrame p tr) n }) :=
  congrArg Host.Outcome.next (s.endTransaction_of h _ _ _ _ tr held code)

end Ends

/-- Settles O18: the end of a WRITE_REQUEST, by the port state and the frame. -/
theorem writeRequestJudged : Obligations.WriteRequestJudged := by
  intro s h bytes tr held code live present
  refine ⟨((s.port h).writeRequest s.loading bytes).link, ((s.port h).writeRequest s.loading bytes).rejected, ?_,
    fun absent => ?_, fun busy => ?_, fun ready cut => ?_, fun f ready whole => ?_⟩
  · rw [exec_writeRequest held code bytes]
    refine congrArg Host.Outcome.next (s.modPort_congr h ?_)
    dsimp only
    rw [live, if_neg Bool.false_ne_true, Port.writeRequest_eq, tr.out_of_present present, shifted_nil]
  · rw [Port.writeRequest_absent absent s.loading]
    exact ⟨absent, rfl⟩
  · rw [Port.writeRequest_busy busy s.loading]
    exact ⟨rfl, rfl⟩
  · rw [Port.writeRequest_incomplete ready cut s.loading]
    exact ⟨ready, rfl⟩
  · rw [Port.writeRequest_complete ready whole s.loading]
    refine ⟨rfl, fun loading => ?_, fun loaded misfit => ?_, fun k loaded kind fits =>
      ⟨fun only plain => ?_, fun allowed => ?_⟩⟩
    · simp only [loading, judgeRequest_loading]
    · simp only [loaded, judgeRequest_misfit misfit]
    · simp only [loaded, plain, judgeRequest_forbidden kind fits only]
    · simp only [loaded, judgeRequest_dispatched kind fits allowed]

/-! ### Reads (R158, R161) -/

section Reads

variable {p : Port} {n : Nat} {t : Transaction}

theorem Port.replyRead_eq (n : Nat) (p : Port) (t : Transaction) :
    p.replyRead n t = { p with link := (p.replyRead n t).link } := by
  unfold Port.replyRead
  split
  · split <;> rfl
  · rfl

/-- R158: a reply read to its last byte leaves its slot, one cut short stays. -/
theorem Port.replyRead_replied {r : Reply} (replied : p.link = .replied r) (frame : t.frame = r.bytes) :
    (p.replyRead n t).link = if r.bytes.length ≤ n then .ready else .replied r := by
  simp only [Port.replyRead, replied, frame, true_and]
  split
  · rfl
  · exact replied

/-- R158: the zero-length frame is no reply's, so that it takes none away. -/
theorem Port.replyRead_zero (frame : t.frame = [0]) : p.replyRead n t = p := by
  unfold Port.replyRead
  split
  · rename_i r _
    rw [if_neg]
    rintro ⟨whole, -⟩
    have lengths := congrArg List.length (frame.symm.trans whole)
    simp [Reply.bytes] at lengths
  · rfl

theorem Port.noticeRead_eq (n : Nat) (p : Port) (t : Transaction) :
    p.noticeRead n t = { p with notices := (p.noticeRead n t).notices } := by
  unfold Port.noticeRead
  split <;> rfl

/-- R159: a notice's frame has its code behind the length byte. -/
theorem Notice.bytes_ne_zero (m : Notice) : m.bytes ≠ [0] := by
  cases m <;> simp [Notice.bytes, Notice.fields]

/-- R161: a notice read to its last byte leaves the queue, one cut short stays. -/
theorem Port.noticeRead_head {m : Notice} (frame : t.frame = m.bytes) :
    (p.noticeRead n t).notices = if m.bytes.length ≤ n then p.notices.tail else p.notices := by
  unfold Port.noticeRead
  rw [frame]
  simp only [ne_eq, m.bytes_ne_zero, not_false_eq_true, true_and]
  split <;> rfl

theorem Port.noticeRead_zero (frame : t.frame = [0]) : p.noticeRead n t = p := by
  simp [Port.noticeRead, frame]

/-- Log entry 10: the count where as many notices are held at the end as at the command byte. -/
theorem statusFrame_of_same (live : t.void = false) (frame : t.frame = [p.noticeCount]) :
    statusFrame p t = [p.noticeCount] := by
  have between (m : Nat) : max m (min m (Config.statusCount m m)) = m := max_eq_left (min_le_left m _)
  simp only [statusFrame, live, frame, List.headD_cons, between]
  simp [byteOf]

end Reads

/-- Settles O19: the three reads, by the frame fixed at the command byte. -/
theorem readsEnd : Obligations.ReadsEnd := by
  intro s h n tr held live present
  refine ⟨fun code => ⟨((s.port h).replyRead n tr).link, ?_, fun r replied frame => ?_, fun frame => ?_⟩,
    fun code => ⟨((s.port h).noticeRead n tr).notices, ?_, fun m rest queue frame => ?_, fun frame => ?_⟩,
    fun code frame => ?_⟩
  · rw [exec_readReply held code n]
    refine congrArg Host.Outcome.next (s.modPort_congr h ?_)
    dsimp only
    rw [live, if_neg Bool.false_ne_true, Port.replyRead_eq, tr.out_of_present present]
  · rw [Port.replyRead_replied replied frame]
    exact ⟨fun whole => if_pos whole, fun cut => if_neg (Nat.not_le.mpr cut)⟩
  · rw [Port.replyRead_zero frame]
  · rw [exec_readNotice held code n]
    refine congrArg Host.Outcome.next (s.modPort_congr h ?_)
    dsimp only
    rw [live, if_neg Bool.false_ne_true, Port.noticeRead_eq, tr.out_of_present present]
  · rw [Port.noticeRead_head frame, queue]
    exact ⟨fun whole => if_pos whole, fun cut => if_neg (Nat.not_le.mpr cut)⟩
  · rw [Port.noticeRead_zero frame]
  · rw [exec_readStatus held code n]
    refine congrArg Host.Outcome.next (s.modPort_congr h ?_)
    dsimp only
    rw [live, if_neg Bool.false_ne_true, tr.out_of_present present, statusFrame_of_same live frame]
    rfl

/-! ### Void and undefined transactions (R149, R165) -/

/-- Settles O20: a void transaction's end and an undefined code's have no effect on the port's record. -/
theorem voidAndUnknownTransactions : Obligations.VoidAndUnknownTransactions := by
  intro s h n bytes code tr held
  refine ⟨fun void => ⟨fun is => ⟨_, tr.length_out [] _, fun present => ?_, ?_⟩,
    fun is => ⟨_, tr.length_out tr.frame n, fun present => tr.out_of_present present _ _, ?_⟩,
    fun is => ⟨_, tr.length_out tr.frame n, fun present => tr.out_of_present present _ _, ?_⟩,
    fun is => ⟨_, tr.length_out (statusFrame (s.port h) tr) n, fun present k first within => ?_, ?_⟩⟩,
    fun is write reply notice status => ?_⟩
  · rw [tr.out_of_present present, shifted_nil]
  · rw [exec_writeRequest held is bytes, void]
    rfl
  · rw [exec_readReply held is n, void]
    rfl
  · rw [exec_readNotice held is n, void]
    rfl
  · rw [tr.out_of_present present, statusFrame, shifted, List.take_of_length_le (by simpa using first.trans within.le),
      List.getElem?_append_right first, List.getElem?_replicate]
    simp
    omega
  · rw [exec_readStatus held is n, void]
    exact congrArg Host.Outcome.next (s.modPort_congr h rfl)
  · have undefined : cmdDefined code = false := by
      refine decide_eq_false ?_
      rintro (is | is | is | is)
      · exact write is
      · exact reply is
      · exact notice is
      · exact status is
    have ends : exec (.unknownCommand h code n) s
        = .next (s.endTransaction h code n (fun _ _ => []) fun p _ => p) :=
      congrArg Host.Outcome.next (if_neg (by simp [undefined]))
    rw [ends, s.endTransaction_of h code n _ _ tr held is]
    refine congrArg Host.Outcome.next (s.modPort_congr h ?_)
    dsimp only
    rw [ite_self, tr.out_of_undefined (is ▸ undefined), shifted_nil]

/-! ### Notices (R160) -/

/-- R160: a queue that ends with a marker and has no room counts the notice there. -/
theorem queueNotice_marker (front : List Notice) (k : Nat) (n : Notice)
    (full : 15 ≤ (front ++ [Notice.noticesLost k]).length) :
    queueNotice (front ++ [.noticesLost k]) n = front ++ [.noticesLost (min 255 (k + 1))] := by
  rw [queueNotice, if_neg (Nat.not_lt.mpr full), List.getLast?_concat, List.dropLast_concat]
  rfl

/-- R160: the first notice that finds no room is counted by a new marker. -/
theorem queueNotice_full (front : List Notice) (m n : Notice) (plain : m.isMarker = false)
    (full : (front ++ [m]).length = 15) : queueNotice (front ++ [m]) n = front ++ [m, .noticesLost 1] := by
  have last : ∀ k, m ≠ .noticesLost k := by
    rintro k rfl
    cases plain
  simp only [queueNotice, full, Nat.lt_irrefl, if_false, List.getLast?_concat, if_true]
  split
  · rename_i k same
    exact absurd (Option.some.inj same) (last k)
  · simp

/-- Settles O22, by the queue that the notice finds. -/
theorem noticePlaced : Obligations.NoticePlaced := by
  intro s h n
  refine ⟨fun absent => s.notify_of_absent h n absent, fun present => ⟨queueNotice (s.port h).notices n,
    (s.notify_of_present h n present).trans (s.modPort_congr h rfl), fun room => if_pos room,
    fun front k queue full => ?_, fun front m queue plain full => ?_⟩⟩
  · rw [queue] at full ⊢
    exact queueNotice_marker front k n (by omega)
  · rw [queue] at full ⊢
    exact queueNotice_full front m n plain full

end Sys2Proof.Machine
end

section
/-! SUPPORT. Sys2Proof/Proofs/HostLeft.lean: what a port holds behind its host's departure: no entry in the setup queue,
and no circuit that is not CLOSING, through the blocks' shared work to the end of the event (R47, R68, R165). -/

namespace Sys2Proof.Machine

open Sys2Proof

/-- R47, R68: the host of port `h` has left: no entry of the queue is its own, and no circuit of the port goes on. -/
structure State.HostLeft (h : PortId) (s : State) : Prop where
  queue : ∀ e ∈ s.queue, e.port ≠ h
  circuits : ∀ c x, s.circuit c = some x → x.near = h → x.state = .closing

namespace State.HostLeft

section

variable {h : PortId} {s : State}

/-- What speaks neither of the queue nor of the slots. -/
theorem same {t : State} (g : s.HostLeft h) (queue : t.queue = s.queue) (slots : t.slots = s.slots) : t.HostLeft h where
  queue := queue ▸ g.queue
  circuits c x := by
    rw [State.circuit, slots]
    exact g.circuits c x

theorem send (g : s.HostLeft h) (m : Msg) : (s.send m).HostLeft h := g.same (State.send_queue ..) (State.send_slots ..)

theorem notify (g : s.HostLeft h) (p : PortId) (n : Notice) : (s.notify p n).HostLeft h :=
  g.same (State.notify_queue ..) (State.notify_slots ..)

theorem leaveAll (g : s.HostLeft h) (l : List LaneId) (b : Bool) (e : PoolEnd) : (s.leaveAll l b e).HostLeft h := by
  obtain ⟨slots, queue, -⟩ := s.leaveAll_rest l b e
  exact g.same queue slots

/-- A circuit put in a slot is another port's, or CLOSING. -/
theorem setCircuit (g : s.HostLeft h) (c : SlotId) {x : Circuit} (hx : x.near = h → x.state = .closing) :
    (s.setCircuit c x).HostLeft h where
  queue := g.queue
  circuits d y held := by
    rw [State.circuit_setCircuit] at held
    split at held
    · cases held
      exact hx
    · exact g.circuits d y held

/-- A circuit that was not CLOSING is another port's, whatever state it takes. -/
theorem setGoing (g : s.HostLeft h) {c : SlotId} {x : Circuit} (hx : s.circuit c = some x) (going : x.state ≠ .closing)
    {y : Circuit} (near : y.near = x.near) : (s.setCircuit c y).HostLeft h :=
  g.setCircuit c fun own => absurd (g.circuits c x hx (near.symm.trans own)) going

theorem modPosition (g : s.HostLeft h) (c : SlotId) (n : Nat) (f : Position → Position) :
    (s.modPosition c n f).HostLeft h := by
  unfold State.modPosition State.modCircuit
  split
  · exact g
  · rename_i x hx
    exact g.setCircuit c (g.circuits c x hx)

/-! ### The blocks' shared work -/

theorem settle (g : s.HostLeft h) (c : SlotId) : (s.settle c).HostLeft h := by
  have up : (s.upDecision c).HostLeft h := by
    unfold State.upDecision
    split
    · exact g
    · rename_i x hx
      split
      · rename_i trains
        exact notify (g.setGoing hx (by rw [trains.1]; exact CircuitState.noConfusion) (by rfl)) _ _
      · exact g
  unfold State.settle
  split
  · exact g
  · rename_i x hx
    split
    · rename_i repaired
      exact notify (g.setGoing hx (by rw [repaired.1]; exact CircuitState.noConfusion) (by rfl)) _ _
    · exact up

theorem beginClose (g : s.HostLeft h) (c : SlotId) (r : CloseReason) : (s.beginClose c r).HostLeft h := by
  unfold State.beginClose
  split
  · exact g
  · rename_i x _
    split
    · exact g
    · obtain ⟨ls, pool, dq, released, -⟩ := State.foldl_release x.lanes s
      have freed : (x.lanes.foldl (fun s i => s.moveLane i .releasing) s).HostLeft h := by
        rw [released]
        exact g.same rfl rfl
      have closed := freed.setCircuit c (x := x.closed r) fun _ => rfl
      dsimp only
      refine send ?_ _
      exact closed.same rfl rfl

theorem dropPosition (g : s.HostLeft h) (c : SlotId) (n : Nat) : (s.dropPosition c n).HostLeft h := by
  unfold State.dropPosition
  split
  · exact g
  · rename_i q _
    have left : (s.cleared c n q).HostLeft h := by
      unfold State.cleared
      dsimp only
      refine leaveAll (leaveAll ?_ _ _ _) _ _ _
      exact (g.modPosition c n Position.narrowed).same rfl rfl
    refine settle ?_ c
    split
    · exact left
    · split
      · exact left.notify _ _
      · exact left

theorem pick (g : s.HostLeft h) (c : SlotId) (n : Nat) : (s.pick c n).HostLeft h := by
  have exhaust : (s.exhaust c n).HostLeft h := by
    unfold State.exhaust
    split
    · exact g
    · split
      · exact (g.send _).dropPosition c n
      · exact g.beginClose c _
  unfold State.pick
  split
  · split
    · exact g
    · split
      · exact exhaust
      · split
        · rename_i i _ _
          have taken : (s.takeLane i .claimed ⟨c, .replacement, n⟩).HostLeft h := g.same rfl rfl
          exact (taken.modPosition c n _).send _
        · exact (g.modPosition c n _).same rfl rfl
  · exact g

/-! ### The end of an event -/

theorem serveSeeking (g : s.HostLeft h) (k : Nat) : (State.serveSeeking k s).HostLeft h := by
  induction k generalizing s with
  | zero => exact g
  | succ k ih =>
    unfold State.serveSeeking
    split
    · rename_i c n rest _ _ _ _
      have next : State.HostLeft h { s with seeking := rest } := g.same rfl rfl
      exact ih ((next.modPosition c n _).pick c n)
    · exact g

theorem reportGrowth (g : s.HostLeft h) : s.reportGrowth.HostLeft h := by
  unfold State.reportGrowth
  split
  · have quiet : State.HostLeft h { s with scratch := { s.scratch with grown := false } } := g.same rfl rfl
    exact (quiet.serveSeeking _).same rfl rfl
  · exact g

/-- R28: a circuit that is proposed is its entry's port's. -/
theorem scanTurn (g : s.HostLeft h) (cls : Cls) (n : Nat) : (State.scanTurn cls s n).HostLeft h := by
  unfold State.scanTurn
  split
  · rename_i e c here _
    have other : e.port ≠ h := g.queue e (List.mem_of_getElem? here)
    split
    · have served := s.served_serveInto n e c (s.grantWidth e)
      refine ⟨fun o m => ?_, fun d x held own => ?_⟩
      · rw [served.queue] at m
        rcases List.mem_or_eq_of_mem_set m with m | rfl
        · exact g.queue o m
        · exact other
      · rw [served.circuit] at held
        split at held
        · cases held
          exact absurd own other
        · exact g.circuits d x held own
    · exact g
  · exact g

theorem scan (g : s.HostLeft h) : s.scan.HostLeft h := by
  have pass (cls : Cls) (l : List Nat) (u : State) (g : u.HostLeft h) :
      (l.foldl (State.scanTurn cls) u).HostLeft h := by
    induction l generalizing u with
    | nil => exact g
    | cons n l ih => exact ih _ (g.scanTurn cls n)
  exact pass .shared _ _ (pass .reserved _ _ g)

theorem grant (g : s.HostLeft h) : s.grant.HostLeft h := by
  obtain ⟨ls, q, us, e, -⟩ := s.grant_eq
  rw [e]
  exact g.same rfl rfl

/-- R48, R66: a trunk loss leaves no circuit, and each entry its port. -/
theorem goLost (g : s.HostLeft h) (r : LossReason) : (s.goLost r).HostLeft h where
  queue e m := by
    obtain ⟨e', m', port, -⟩ := s.queueFrom_goLost r e m
    exact port ▸ g.queue e' m'
  circuits c x held := by
    obtain ⟨ls, q, sl, ps, sc, ring, n, lost, -, vacant, -⟩ := s.goLost_eq r
    rw [lost] at held
    have none : (sl.get c).circuit = none := by rw [vacant]; rfl
    cases none.symm.trans held

theorem finish (g : s.HostLeft h) : s.finish.HostLeft h := by
  have grown := g.reportGrowth
  have scanned : (if s.reportGrowth.scratch.scan then s.reportGrowth.scan else s.reportGrowth).HostLeft h := by
    split
    · exact grown.scan
    · exact grown
  unfold State.finish
  dsimp only
  generalize (if s.reportGrowth.scratch.scan then s.reportGrowth.scan else s.reportGrowth) = u at scanned ⊢
  have granted : (if u.scratch.grant then u.grant else u).HostLeft h := by
    split
    · exact scanned.grant
    · exact scanned
  generalize (if u.scratch.grant then u.grant else u) = v at granted ⊢
  have ended : v.overflowLoss.HostLeft h := by
    unfold State.overflowLoss
    split
    · exact granted.goLost _
    · exact granted
  exact ended.same rfl rfl

end

end State.HostLeft

/-! ### The circuits of a port -/

theorem State.mem_circuitsOf {s : State} {h : PortId} {cx : SlotId × Circuit} :
    cx ∈ s.circuitsOf h ↔ s.circuit cx.1 = some cx.2 ∧ cx.2.near = h := by
  obtain ⟨c, x⟩ := cx
  simp [State.circuitsOf, State.circuits]

/-- R22: a slot holds one circuit. -/
theorem State.circuitsOf_nodup (s : State) (h : PortId) : ((s.circuitsOf h).map Prod.fst).Nodup := by
  have pairs : (s.circuitsOf h).Nodup := by
    refine ((indexes_nodup 16).filterMap fun a b cx ha hb => ?_).filter _
    obtain ⟨_, -, rfl⟩ := Option.map_eq_some_iff.mp ha
    obtain ⟨_, -, same⟩ := Option.map_eq_some_iff.mp hb
    exact (congrArg Prod.fst same).symm
  refine pairs.map_on fun a ma b mb same => Prod.ext same ?_
  have held := (State.mem_circuitsOf.mp ma).1
  rw [same, (State.mem_circuitsOf.mp mb).1] at held
  exact (Option.some.inj held).symm

/-- R40: a close changes one circuit, and not one that is CLOSING. -/
theorem State.circuit_beginClose (s : State) (c d : SlotId) (r : CloseReason) : (s.beginClose c r).circuit d =
    if d = c then (s.circuit c).map fun x => if x.state = .closing then x else x.closed r else s.circuit d := by
  unfold State.beginClose
  split
  · rename_i vacant
    by_cases own : d = c
    · simp [own, vacant]
    · simp [own]
  · rename_i x hx
    split
    · rename_i closing
      by_cases own : d = c
      · simp [own, hx, closing]
      · simp [own]
    · rename_i going
      obtain ⟨ls, pool, dq, released, -⟩ := State.foldl_release x.lanes s
      rw [released]
      dsimp only
      rw [State.send_circuit, hx, Option.map_some, if_neg going]
      exact State.circuit_setCircuit _ c d _

/-- R47: behind the closes of a departure, each circuit is one of before, and those of the list are CLOSING. -/
theorem State.circuit_foldl_depart (l : List (SlotId × Circuit)) (s : State) {d : SlotId} {y : Circuit}
    (hy : (l.foldl State.departCircuit s).circuit d = some y) :
    (d ∈ l.map Prod.fst → y.state = .closing)
      ∧ ∃ x, s.circuit d = some x ∧ y.near = x.near ∧ (x.state = .closing → y.state = .closing) := by
  induction l generalizing s with
  | nil => exact ⟨fun m => (nomatch m), y, hy, rfl, id⟩
  | cons cx l ih =>
    obtain ⟨closed, z, hz, near, still⟩ := ih _ hy
    rw [State.departCircuit, State.circuit_beginClose] at hz
    split at hz
    · rename_i own
      obtain ⟨x, hx, rfl⟩ := Option.map_eq_some_iff.mp hz
      have closing : y.state = .closing := by
        refine still ?_
        split
        · assumption
        · rfl
      refine ⟨fun _ => closing, x, own ▸ hx, near.trans ?_, fun _ => closing⟩
      split <;> rfl
    · rename_i other
      exact ⟨fun m => closed ((List.mem_cons.mp m).resolve_left other), z, hz, near, still⟩

/-- R47, R68: behind the closes, with the port's entries dropped, the host has left. -/
theorem State.hostLeft_departed (s : State) (h : PortId) :
    (((s.circuitsOf h).foldl State.departCircuit s).dropEntries fun e => e.port = h).HostLeft h := by
  obtain ⟨q, k, drops, rest⟩ :=
    ((s.circuitsOf h).foldl State.departCircuit s).dropEntries_eq fun e => decide (e.port = h)
  rw [drops]
  refine ⟨fun e m => of_decide_eq_false (rest e m).2, fun c y hy own => ?_⟩
  obtain ⟨closed, x, hx, near, -⟩ := State.circuit_foldl_depart _ s hy
  exact closed (List.mem_map.mpr ⟨(c, x), State.mem_circuitsOf.mpr ⟨hx, near.symm.trans own⟩, rfl⟩)

end Sys2Proof.Machine
end

section
/-! SUPPORT. Sys2Proof/Proofs/Departure.lean: the closes that a departure begins (R40, R47), and hosts that come and go
(R68, R164, R165). -/

namespace Sys2Proof.Machine

open Sys2Proof

/-! ### What outlasts later work -/

/-- What `t` keeps of `s`: the places of lanes that are in no pool, and those among them that are RELEASING; the
circuits that are CLOSING; that nothing more is sought; and the messages placed. -/
structure State.KeepsCloses (s t : State) : Prop where
  lanes : ∀ i, i ∉ s.pool → i ∉ t.pool ∧ (t.lane i).place = (s.lane i).place
    ∧ ((s.lane i).state = .releasing → (t.lane i).state = .releasing)
  circuits : ∀ d y, s.circuit d = some y → y.state = .closing → t.circuit d = some y
  seeking : ∀ cp ∈ t.seeking, cp ∈ s.seeking
  placed : ∃ back, t.placed = s.placed ++ back

theorem State.KeepsCloses.refl (s : State) : s.KeepsCloses s :=
  ⟨fun _ out => ⟨out, rfl, id⟩, fun _ _ held _ => held, fun _ m => m, [], (List.append_nil _).symm⟩

theorem State.KeepsCloses.trans {s t u : State} (a : s.KeepsCloses t) (b : t.KeepsCloses u) : s.KeepsCloses u := by
  obtain ⟨back, placed⟩ := a.placed
  obtain ⟨back', placed'⟩ := b.placed
  refine ⟨fun i out => ?_, fun d y held closing => b.circuits d y (a.circuits d y held closing) closing,
    fun cp m => a.seeking cp (b.seeking cp m), back ++ back', by rw [placed', placed, List.append_assoc]⟩
  obtain ⟨out', place, state⟩ := a.lanes i out
  obtain ⟨out'', place', state'⟩ := b.lanes i out'
  exact ⟨out'', place'.trans place, fun releasing => state' (state releasing)⟩

/-- R59: a scan serves WAITING entries from the pool. -/
theorem State.Scanned.keepsCloses {s t : State} (h : s.Scanned t) : s.KeepsCloses t where
  lanes i out := by
    obtain ⟨lane, out'⟩ := h.lanes i out
    exact ⟨out', by rw [lane], fun releasing => by rw [lane]; exact releasing⟩
  circuits d y held _ := h.circuits d y held
  seeking cp m := h.seeking ▸ m
  placed := h.placed

/-- R40: a close has begun, and the circuit's lanes have left the pool. -/
def State.CloseStands (s t : State) (c : SlotId) (x : Circuit) (why : CloseReason) : Prop :=
  s.CloseBegun t c x why ∧ ∀ i ∈ x.lanes, i ∉ t.pool

theorem State.CloseStands.later {s t u : State} {c : SlotId} {x : Circuit} {why : CloseReason}
    (h : s.CloseStands t c x why) (keeps : t.KeepsCloses u) : s.CloseStands u c x why := by
  obtain ⟨begun, out⟩ := h
  obtain ⟨y, held, closing, rest⟩ := begun.circuit
  obtain ⟨front, back, placed⟩ := begun.placed
  obtain ⟨more, placed'⟩ := keeps.placed
  refine ⟨⟨⟨y, keeps.circuits c y held closing, closing, rest⟩, fun i m => ?_,
    fun cp m => begun.seeking cp (keeps.seeking cp m), front, back ++ more, ?_⟩, fun i m => (keeps.lanes i (out i m)).1⟩
  · obtain ⟨-, place, state⟩ := keeps.lanes i (out i m)
    obtain ⟨releasing, before⟩ := begun.lanes i m
    exact ⟨state releasing, place.trans before⟩
  · rw [placed', placed]
    simp

theorem State.BeginsClose.stands {s u : State} {c : SlotId} {x : Circuit} {why : CloseReason}
    (h : s.BeginsClose u c x why) : s.CloseStands u c x why := by
  refine ⟨⟨⟨_, h.circuit, rfl, rfl, rfl, x.lanes_closed why⟩, fun i m => ?_, h.seeking, [], [], ?_⟩, fun i m => ?_⟩
  · obtain ⟨state, place, -⟩ := h.lanes i m
    exact ⟨state, place⟩
  · rw [h.placed, List.append_nil]
  · obtain ⟨-, -, out⟩ := h.lanes i m
    exact out

/-! ### The closes of a departure (R47) -/

/-- What closes that have room leave of `s`, with room for `n` messages more. -/
structure State.ClosesLeave (s t : State) (n : Nat) : Prop where
  keeps : s.KeepsCloses t
  place : ∀ i, (t.lane i).place = (s.lane i).place
  queue : t.queue = s.queue
  marks : t.scratch = s.scratch
  room : t.Room n

theorem State.ClosesLeave.refl {s : State} {n : Nat} (room : s.Room n) : s.ClosesLeave s n :=
  ⟨.refl s, fun _ => rfl, rfl, rfl, room⟩

theorem State.ClosesLeave.trans {s t u : State} {m n : Nat} (a : s.ClosesLeave t m) (b : t.ClosesLeave u n) :
    s.ClosesLeave u n :=
  ⟨a.keeps.trans b.keeps, fun i => (b.place i).trans (a.place i), b.queue.trans a.queue, b.marks.trans a.marks, b.room⟩

theorem State.CloseStands.earlier {s t u : State} {n : Nat} {c : SlotId} {x : Circuit} {why : CloseReason}
    (h : t.CloseStands u c x why) (first : s.ClosesLeave t n) : s.CloseStands u c x why := by
  obtain ⟨begun, out⟩ := h
  obtain ⟨before, placed⟩ := first.keeps.placed
  obtain ⟨front, back, placed'⟩ := begun.placed
  refine ⟨⟨begun.circuit, fun i m => ?_, begun.seeking, before ++ front, back, ?_⟩, out⟩
  · obtain ⟨state, place⟩ := begun.lanes i m
    exact ⟨state, place.trans (first.place i)⟩
  · rw [placed', placed]
    simp

/-- R40: a close takes its lanes out of the pool and leaves every lane in its place. -/
theorem State.closesLeave_beginClose {s : State} {n : Nat} (v : s.scratch.overflow = false) (room : s.Room (n + 1))
    (c : SlotId) (why : CloseReason) : s.ClosesLeave (s.beginClose c why) n := by
  have circuits (d : SlotId) (y : Circuit) (held : s.circuit d = some y) (closing : y.state = .closing) :
      (s.beginClose c why).circuit d = some y := by
    rw [State.circuit_beginClose]
    split
    · rename_i own
      rw [← own, held, Option.map_some, if_pos closing]
    · exact held
  have self : s.ClosesLeave s n := .refl (room.mono (Nat.le_succ n))
  cases hx : s.circuit c with
  | none =>
    have same : s.beginClose c why = s := by rw [State.beginClose, hx]
    rw [same]
    exact self
  | some x =>
    by_cases closing : x.state = .closing
    · have same : s.beginClose c why = s := by
        rw [State.beginClose, hx]
        exact if_pos closing
      rw [same]
      exact self
    · obtain ⟨ls, pool, dq, released, lanes, others, within⟩ := State.foldl_release x.lanes s
      let u : State := { s.setCircuit c (x.closed why) with
        lanes := ls, pool := pool, dwellQueue := dq, seeking := s.seeking.filter fun cp => decide (cp.1 ≠ c) }
      have form : s.beginClose c why = u.send (.close x.tag why) := by
        rw [State.beginClose, hx]
        refine (if_neg closing).trans ?_
        rw [released]
        rfl
      have lane (i : LaneId) : (u.lane i).place = (s.lane i).place
          ∧ ((s.lane i).state = .releasing → (u.lane i).state = .releasing) := by
        by_cases m : i ∈ x.lanes
        · obtain ⟨state, place, -⟩ := lanes i m
          exact ⟨place, fun _ => state⟩
        · have same : u.lane i = s.lane i := others i m
          rw [same]
          exact ⟨rfl, id⟩
      have room' : u.Room (n + 1) := room
      rw [form] at circuits ⊢
      refine ⟨⟨fun i out => ?_, circuits, fun cp m => ?_, _, State.placed_send u _ room.1 v room'.lt⟩, fun i => ?_,
        State.send_queue .., State.send_scratch u _ room'.lt, room'.send _⟩
      · rw [State.send_pool, State.send_lane]
        exact ⟨fun m => out (within i m), lane i⟩
      · rw [State.send_seeking] at m
        exact (List.mem_filter.mp m).1
      · rw [State.send_lane]
        exact (lane i).1

/-- R40, R47: each circuit of the list that was not CLOSING has begun its close, in turn. -/
theorem State.foldl_depart (l : List (SlotId × Circuit)) {s : State} {n : Nat} (v : s.scratch.overflow = false)
    (room : s.Room (l.length + n)) (few : s.queue.length ≤ n) (nodup : (l.map Prod.fst).Nodup)
    (held : ∀ cx ∈ l, s.circuit cx.1 = some cx.2) :
    s.ClosesLeave (l.foldl State.departCircuit s) n ∧ ∀ cx ∈ l, cx.2.state ≠ .closing →
      s.CloseStands (l.foldl State.departCircuit s) cx.1 cx.2
        (if cx.2.state = .proposed then .withdrawn else .hostGone) := by
  induction l generalizing s with
  | nil => exact ⟨.refl (room.mono (by simp)), fun _ m => nomatch m⟩
  | cons cx l ih =>
    obtain ⟨new, apart⟩ := List.nodup_cons.mp nodup
    rw [List.length_cons, Nat.add_right_comm] at room
    have first : s.ClosesLeave (s.departCircuit cx) (l.length + n) := State.closesLeave_beginClose v room _ _
    have others (dy : SlotId × Circuit) (m : dy ∈ l) : (s.departCircuit cx).circuit dy.1 = some dy.2 := by
      have ne : dy.1 ≠ cx.1 := fun same => new (List.mem_map.mpr ⟨dy, m, same⟩)
      rw [State.departCircuit, State.circuit_beginClose, if_neg ne]
      exact held dy (List.mem_cons_of_mem _ m)
    obtain ⟨rest, begun⟩ := ih (by rw [first.marks]; exact v) first.room (by rw [first.queue]; exact few) apart others
    refine ⟨first.trans rest, fun dy m going => ?_⟩
    rcases List.mem_cons.mp m with rfl | m
    · have closes := State.beginsClose (held dy m) going v (room.mono (by omega))
        (if dy.2.state = .proposed then .withdrawn else .hostGone)
      exact closes.stands.later rest.keeps
    · exact (begun dy m going).earlier first

/-- R165: behind the closes, the port's entries leave and at most a scan follows. -/
theorem State.keepsCloses_ended {u : State} (clear : u.Unmarked) (room : u.Room u.queue.length)
    (leaves : Entry → Bool) : u.KeepsCloses (u.dropEntries leaves).finish := by
  have few := u.length_dropEntries leaves
  obtain ⟨q, k, drops, -⟩ := u.dropEntries_eq leaves
  rw [drops] at few ⊢
  obtain ⟨t, scanned, ends⟩ := State.scanned_finish
    (s := { u with queue := q, scratch := { u.scratch with scan := k } }) (b := k) (by rw [clear])
    (State.Room.mono (s := u) room ((List.countP_le_length ..).trans few))
  have keeps := scanned.keepsCloses
  rw [ends]
  exact ⟨keeps.lanes, keeps.circuits, keeps.seeking, keeps.placed⟩

/-! ### Ports of absent hosts -/

/-- R160, R165: no shared work changes the record of an ABSENT port. -/
theorem kept_absentPort {h : PortId} {p : Port} (absent : p.link = .absent) : Kept fun s => s.port h = p :=
  kept_of_ports (fun s t e same => by rw [State.port, e]; exact same) fun s g n same => by
    rw [State.port_notify]
    split
    · rename_i noticed
      rw [← noticed.1, same] at noticed
      exact absurd absent noticed.2
    · exact same

/-- Settles O21: the departure's closes, one by one, and what the end of the event leaves of them. -/
theorem hostsComeAndGo : Obligations.HostsComeAndGo := by
  intro s h
  refine ⟨fun absent => ?_, fun present => ?_⟩
  · exact congrArg Host.Outcome.next (if_neg (by simp [Port.present, absent]))
  have here : (s.port h).present = true := by simpa [Port.present] using present
  have run : exec (.hostDeparture h) s = .next (s.depart h) := congrArg Host.Outcome.next (if_pos here)
  let gone : State := s.modPort h Port.depart
  have left : (s.depart h).HostLeft h := (gone.hostLeft_departed h).finish
  refine ⟨s.depart h, run, ?_, left.queue, left.circuits, fun clear room => ?_⟩
  · have k := kept_absentPort (h := h) (p := (s.port h).depart) rfl
    have departed : gone.port h = (s.port h).depart := s.port_modPort_self h _
    have closed := k.foldl State.departCircuit (fun _ cx same => k.beginClose same cx.1 _) (gone.circuitsOf h) departed
    exact k.finish (k.dropEntries closed _)
  · have marks : gone.scratch = {} := clear
    obtain ⟨closes, begun⟩ := State.foldl_depart (s.circuitsOf h) (s := gone) (by rw [marks]) room (le_refl _)
      (s.circuitsOf_nodup h) fun cx m => (State.mem_circuitsOf.mp m).1
    have ended := State.keepsCloses_ended (closes.marks.trans clear) (by rw [closes.queue]; exact closes.room)
      fun e => e.port = h
    refine fun c x hx own => ⟨fun going => ?_, fun closing => ?_⟩
    · obtain ⟨close, -⟩ := (begun (c, x) (State.mem_circuitsOf.mpr ⟨hx, own⟩) going).later ended
      exact ⟨close.circuit, close.lanes, close.seeking, close.placed⟩
    · exact (closes.keeps.trans ended).circuits c x hx closing

end Sys2Proof.Machine
end

section
/-! SUPPORT. Sys2Proof/Proofs/ReadLog.lean: the fault log as a port reads it (R171, R172): the reply, and the cursor
behind it. -/

namespace Sys2Proof

theorem Table.set_set {n : Nat} {α : Type} (t : Table n α) (i : Fin n) (x y : α) : (t.set i x).set i y = t.set i y := by
  simp [Table.set]

namespace Machine

/-- Two changes of one port record, one behind the other, are one change. -/
theorem State.modPort_modPort (s : State) (h : PortId) (f g : Port → Port) :
    (s.modPort h f).modPort h g = s.modPort h (g ∘ f) := by
  have reads := s.port_modPort_self h f
  rw [State.modPort, reads]
  simp only [State.modPort, Table.set_set, Function.comp]

/-- R171, R154: the cursor is moved before the reply is placed; the port's record is the same in the other order. -/
theorem State.reply_setCursor {s : State} {h : PortId} {k : ReqKind} {tag : Byte} {ps : List Byte}
    (asks : s.Asks h k tag ps) (cursor : Half) (st : Status) (rs : List Byte) :
    (s.setCursor h cursor).reply h st rs
      = (s.answered h k tag st rs).modPort h fun p => { p with cursor := cursor } := by
  have asks' : (s.setCursor h cursor).Asks h k tag ps := by
    rw [State.Asks, State.setCursor, State.port_modPort_self]
    exact asks
  rw [State.reply_of_asks asks', State.answered, State.answered, State.setCursor, State.modPort_modPort,
    State.modPort_modPort]
  rfl

section Reads

variable {s : State} {h : PortId} {tag b : Byte}

/-- READ_LOG is taken by its owner. -/
theorem State.exec_readLog (asks : s.Asks h .readLog tag [b]) : exec (.readLog h) s = .next (s.takeReadLog h [b]) :=
  congrArg Host.Outcome.next (State.takeRequest_of_asks asks _)

/-- R172: a count outside 1 to 4 is refused. -/
theorem State.takeReadLog_of_count_out (asks : s.Asks h .readLog tag [b]) (out : b.toNat = 0 ∨ 4 < b.toNat) :
    s.takeReadLog h [b] = s.answered h .readLog tag .badRequest [] :=
  (if_neg (by omega)).trans (State.reply_of_asks asks _ _)

theorem State.takeReadLog_of_count (least : 1 ≤ b.toNat) (most : b.toNat ≤ 4) :
    s.takeReadLog h [b] = s.readLog h b.toNat :=
  if_pos ⟨least, most⟩

/-- R171: the cursor's place behind the oldest entry says whether it is valid. -/
theorem State.cursorValid_iff (s : State) (cursor : Half) :
    s.cursorValid cursor = true ↔ (cursor - s.oldestEntry).toNat ≤ s.ring.length :=
  decide_eq_true_iff

/-- The entries from the oldest onward are the head of the ring. -/
theorem State.entriesFrom_oldest (s : State) (count : Nat) :
    s.entriesFrom s.oldestEntry count = s.ring.take count := by
  simp [State.entriesFrom]

/-- R172: a valid cursor is answered OK with the entries from it onward, and moves past them. -/
theorem State.readLog_of_valid (asks : s.Asks h .readLog tag [b]) (count : Nat)
    (valid : s.cursorValid (s.port h).cursor = true) :
    s.readLog h count =
      (s.answered h .readLog tag .ok (entriesBytes (s.entriesFrom (s.port h).cursor count))).modPort h fun p =>
        { p with cursor :=
            (s.port h).cursor + BitVec.ofNat 16 (s.entriesFrom (s.port h).cursor count).length } :=
  (if_pos valid).trans (State.reply_setCursor asks ..)

/-- R172: any other is answered LOG_GAP with the number of entries lost and those from the oldest onward, and moves past
them. -/
theorem State.readLog_of_gap (asks : s.Asks h .readLog tag [b]) (count : Nat)
    (gap : ¬ s.cursorValid (s.port h).cursor = true) :
    s.readLog h count =
      (s.answered h .readLog tag .logGap
          (halfBytes (s.oldestEntry - (s.port h).cursor) ++ entriesBytes (s.ring.take count))).modPort h fun p =>
        { p with cursor := s.oldestEntry + BitVec.ofNat 16 (s.ring.take count).length } := by
  rw [← s.entriesFrom_oldest]
  exact (if_neg gap).trans (State.reply_setCursor asks ..)

end Reads

/-- Settles O25, by the count and by the cursor. -/
theorem readLogAnswers : Obligations.ReadLogAnswers := by
  intro s h tag b asks
  rw [State.exec_readLog asks]
  refine ⟨fun out => by rw [State.takeReadLog_of_count_out asks out], fun least most cursor oldest hc ho => ?_⟩
  rw [State.takeReadLog_of_count least most]
  subst hc ho
  refine ⟨fun valid es carried => ?_, fun gap es carried => ?_⟩ <;> subst carried
  · exact congrArg Host.Outcome.next (State.readLog_of_valid asks _ ((s.cursorValid_iff _).mpr valid))
  · exact congrArg Host.Outcome.next (State.readLog_of_gap asks _ (mt (s.cursorValid_iff _).mp (not_le.mpr gap)))

end Machine

end Sys2Proof
end

section
/-! SUPPORT. Sys2Proof/Proofs/Parameters.lean: a parameter's own range and the joint limits, what a write of one parameter
keeps of both, and the requests that read and write one (R101, R175, R176, R181, R182). -/

namespace Sys2Proof.Machine

open Sys2Proof

/-! ### Ranges and joint limits (R175, R176) -/

/-- R175, R176: every parameter lies in its own range, but for the hold and the floors, which the joint limits bound, and
those whose type is their range. -/
structure Params.Ranged (p : Params) : Prop where
  sweepInterval : 5 ≤ p.sweepInterval ∧ p.sweepInterval ≤ 250
  controlTick : 1 ≤ p.controlTick ∧ p.controlTick ≤ 20
  qualify : 1 ≤ p.qualify ∧ p.qualify ≤ 255
  strikeLimit : 1 ≤ p.strikeLimit ∧ p.strikeLimit ≤ 7
  lookBeyond : 1 ≤ p.lookBeyond ∧ p.lookBeyond ≤ 6
  trainAttempts : 1 ≤ p.trainAttempts ∧ p.trainAttempts ≤ 3
  release : p.release ≤ 250
  retireLimit : 1 ≤ p.retireLimit ∧ p.retireLimit ≤ 15
  repairPatience : 1 ≤ p.repairPatience ∧ p.repairPatience ≤ 60
  retryLimit : 1 ≤ p.retryLimit ∧ p.retryLimit ≤ 8
  silenceLimit : 2 ≤ p.silenceLimit ∧ p.silenceLimit ≤ 32
  ceilings : ∀ h : PortId, 1 ≤ p.ceilings.get h ∧ p.ceilings.get h ≤ 24
  presets : ∀ i : PresetId, (p.presets.get i).boost ≤ 31
    ∧ (-8 ≤ (p.presets.get i).preTap ∧ (p.presets.get i).preTap ≤ 7)
    ∧ (-8 ≤ (p.presets.get i).postTap ∧ (p.presets.get i).postTap ≤ 7)

/-- R175: the three limits, one by one. -/
theorem Params.jointOk_iff (p : Params) : p.jointOk = true ↔
    p.hold ≤ p.qualify ∧ (∀ h, p.floors.get h ≤ p.ceilings.get h) ∧ p.floorSum ≤ (lanesOf p.enableMask).length := by
  simp [Params.jointOk, and_assoc]

theorem Params.legal_iff (p : Params) : p.Legal ↔ p.Ranged ∧ p.jointOk = true := by
  rw [Params.jointOk_iff]
  constructor
  · intro h
    exact ⟨{ h with }, h.hold, h.floors, h.floorSum⟩
  · rintro ⟨ranged, hold, floors, floorSum⟩
    exact { ranged with hold, floors, floorSum }

/-- R175: every built-in default lies in its own range. -/
theorem ParamId.inRange_default (id : ParamId) : id.inRange (Params.read {} id) = true := by
  cases id with
  | floor h => revert h; decide
  | ceiling h => revert h; decide
  | preset i => revert i; decide
  | _ => decide

/-! ### A write of one parameter (R181, R182) -/

/-- R176: an entry whose bytes lie in range. -/
theorem presetOfMask_ranged {i : PresetId} {v : Mask} (range : ParamId.inRange (.preset i) v = true) :
    (presetOfMask v).boost ≤ 31 ∧ (-8 ≤ (presetOfMask v).preTap ∧ (presetOfMask v).preTap ≤ 7)
      ∧ (-8 ≤ (presetOfMask v).postTap ∧ (presetOfMask v).postTap ≤ 7) := by
  simp only [ParamId.inRange, tapInRange, Bool.and_eq_true, decide_eq_true_eq, and_assoc] at range
  simpa only [presetOfMask, and_assoc] using range

/-- R182: a value in its own range leaves every parameter in its own range. -/
theorem Params.Ranged.write {p : Params} (h : p.Ranged) {id : ParamId} {v : Mask} (range : id.inRange v = true) :
    (p.write id v).Ranged := by
  cases id with
  | enableMask | hold | startPreset | startPolicy | floor => exact { h with }
  | sweepInterval => exact { h with sweepInterval := of_decide_eq_true range }
  | controlTick => exact { h with controlTick := of_decide_eq_true range }
  | qualify => exact { h with qualify := of_decide_eq_true range }
  | strikeLimit => exact { h with strikeLimit := of_decide_eq_true range }
  | lookBeyond => exact { h with lookBeyond := of_decide_eq_true range }
  | trainAttempts => exact { h with trainAttempts := of_decide_eq_true range }
  | release => exact { h with release := (of_decide_eq_true range : 0 ≤ v.toNat ∧ v.toNat ≤ 250).2 }
  | retireLimit => exact { h with retireLimit := of_decide_eq_true range }
  | repairPatience => exact { h with repairPatience := of_decide_eq_true range }
  | retryLimit => exact { h with retryLimit := of_decide_eq_true range }
  | silenceLimit => exact { h with silenceLimit := of_decide_eq_true range }
  | ceiling g =>
    refine { h with ceilings := fun j => ?_ }
    simp only [Params.write, Table.get_set]
    split
    · exact of_decide_eq_true range
    · exact h.ceilings j
  | preset i =>
    refine { h with presets := fun j => ?_ }
    simp only [Params.write, Table.get_set]
    split
    · exact presetOfMask_ranged range
    · exact h.presets j

/-- R182 cases 3 to 5: a write that breaks no limit of its own parameter breaks none. -/
theorem Params.jointOk_write {p : Params} (ok : p.jointOk = true) {id : ParamId} {v : Mask}
    (fits : p.breaksJoint id v = false) : (p.write id v).jointOk = true := by
  rw [Params.jointOk_iff] at ok ⊢
  obtain ⟨hold, floors, floorSum⟩ := ok
  cases id with
  | hold => exact ⟨not_lt.mp (of_decide_eq_false fits), floors, floorSum⟩
  | qualify => exact ⟨not_lt.mp (of_decide_eq_false fits), floors, floorSum⟩
  | enableMask => exact ⟨hold, floors, not_lt.mp (of_decide_eq_false fits)⟩
  | floor g =>
    obtain ⟨ceiling, sum⟩ := Bool.or_eq_false_iff.mp fits
    refine ⟨hold, fun j => ?_, not_lt.mp (of_decide_eq_false sum)⟩
    simp only [Params.write, Table.get_set]
    split
    · rename_i own
      rw [own]
      exact not_lt.mp (of_decide_eq_false ceiling)
    · exact floors j
  | ceiling g =>
    refine ⟨hold, fun j => ?_, floorSum⟩
    simp only [Params.write, Table.get_set]
    split
    · rename_i own
      rw [own]
      exact not_lt.mp (of_decide_eq_false fits)
    · exact floors j
  | _ => exact ⟨hold, floors, floorSum⟩

theorem Params.Legal.write {p : Params} (h : p.Legal) {id : ParamId} {v : Mask} (range : id.inRange v = true)
    (fits : p.breaksJoint id v = false) : (p.write id v).Legal := by
  rw [Params.legal_iff] at h ⊢
  exact ⟨h.1.write range, Params.jointOk_write h.2 fits⟩

/-- R176: an entry reads back as the three bytes it was made of. -/
@[simp] theorem mask_presetOfMask (v : Mask) : (presetOfMask v).mask = v := by
  simp only [presetOfMask, PresetEntry.mask, byteOf, BitVec.ofNat_toNat, BitVec.setWidth_eq, BitVec.ofInt_toInt,
    maskOf_maskBytes]

/-- R181: a value in its own range reads back as written. -/
theorem Params.read_write (p : Params) {id : ParamId} {v : Mask} (range : id.inRange v = true) :
    (p.write id v).read id = v := by
  have number : BitVec.ofNat 24 v.toNat = v := by simp
  cases id with
  | enableMask => rfl
  | startPreset =>
    have bound : 0 ≤ v.toNat ∧ v.toNat ≤ 11 := of_decide_eq_true range
    have small : v.toNat % 12 = v.toNat := Nat.mod_eq_of_lt (by omega)
    simp only [Params.write, Params.read, Fin.ofNat, small, number]
  | startPolicy =>
    have bound : 0 ≤ v.toNat ∧ v.toNat ≤ 1 := of_decide_eq_true range
    by_cases one : v = 1
    · simp [Params.write, Params.read, one]
    · have zero : v = 0 := by bv_omega
      simp [Params.write, Params.read, zero]
  | floor g => simp only [Params.write, Params.read, Table.get_set_self, number]
  | ceiling g => simp only [Params.write, Params.read, Table.get_set_self, number]
  | preset i => simp only [Params.write, Params.read, Table.get_set_self, mask_presetOfMask]
  | _ => exact number

/-! ### READ_PARAM (R181) -/

/-- Settles O24, by whether the id is in the table. -/
theorem readParamAnswers : Obligations.ReadParamAnswers := by
  intro s h tag id asks
  have taken : exec (.readParam h) s = .next (s.takeReadParam h [id]) :=
    congrArg Host.Outcome.next (State.takeRequest_of_asks asks _)
  rw [taken]
  refine ⟨fun unknown => ?_, fun q known => ?_⟩
  · simp only [State.takeReadParam, unknown, State.reply_of_asks asks]
  · simp only [State.takeReadParam, known, State.reply_of_asks asks]

/-! ### WRITE_PARAM (R182) -/

section Write

variable {s : State} {h : PortId} {tag id a b c : Byte} {q : ParamId} {v : Mask}

/-- WRITE_PARAM is taken by its owner. -/
theorem State.exec_writeParam (asks : s.Asks h .writeParam tag [id, a, b, c]) :
    exec (.writeParam h) s = .next (s.takeWriteParam h [id, a, b, c]) :=
  congrArg Host.Outcome.next (State.takeRequest_of_asks asks _)

/-- R182 case 1: an id that is not in the table. -/
theorem State.takeWriteParam_of_unknown (unknown : paramOf id = none) :
    s.takeWriteParam h [id, a, b, c] = s.reply h .badRequest [] := by
  simp only [State.takeWriteParam, unknown]

theorem State.takeWriteParam_of_known (known : paramOf id = some q) :
    s.takeWriteParam h [id, a, b, c] = s.writeParam h q (maskOf a b c) := by
  simp only [State.takeWriteParam, known]

/-- R182 cases 2 to 5. -/
theorem State.writeParam_of_bad (bad : q.inRange v = false ∨ s.params.breaksJoint q v = true) :
    s.writeParam h q v = s.reply h .badValue [] :=
  if_pos bad

/-- R182 case 6. -/
theorem State.writeParam_of_good (range : q.inRange v = true) (fits : s.params.breaksJoint q v = false) :
    s.writeParam h q v =
      ((q.afterWrite s.params { s with params := s.params.write q v }).reply h .ok []).finish :=
  if_neg (by simp [range, fits])

end Write

/-- R182 cases 3 to 5: what breaks a joint limit. -/
theorem Params.breaksJoint_iff (p : Params) (q : ParamId) (v : Mask) : p.breaksJoint q v = true ↔
    (q = .hold ∧ p.qualify < v.toNat) ∨ (q = .qualify ∧ v.toNat < p.hold)
      ∨ (∃ g, q = .floor g ∧ p.ceilings.get g < v.toNat) ∨ (∃ g, q = .ceiling g ∧ v.toNat < p.floors.get g)
      ∨ (∃ g, q = .floor g ∧ (lanesOf p.enableMask).length < (p.write (.floor g) v).floorSum)
      ∨ (q = .enableMask ∧ (lanesOf v).length < p.floorSum) := by
  cases q <;> simp [Params.breaksJoint]

/-- Settles O26, by the id and by the model's two checks. -/
theorem writeParamRefused : Obligations.WriteParamRefused := by
  rintro s h tag id a b c v asks rfl
  rw [State.exec_writeParam asks]
  refine ⟨fun unknown => ?_, fun q known bad => ?_⟩
  · rw [State.takeWriteParam_of_unknown unknown, State.reply_of_asks asks]
  · have refused := bad.imp_right (s.params.breaksJoint_iff q _).mpr
    rw [State.takeWriteParam_of_known known, State.writeParam_of_bad refused, State.reply_of_asks asks]

/-- R58, R101: but behind a write of a floor or a ceiling, no mark is set. -/
theorem ParamId.afterWrite_scratch {q : ParamId} (old : Params) (s : State) (noFloor : ∀ g, q ≠ .floor g)
    (noCeiling : ∀ g, q ≠ .ceiling g) : (q.afterWrite old s).scratch = s.scratch := by
  unfold ParamId.afterWrite
  split
  · unfold State.clampStrikes
    split <;> rfl
  · exact absurd rfl (noFloor _)
  · exact absurd rfl (noCeiling _)
  · rfl

/-- R101: a lowered strike limit clamps the strikes of the lanes in ACTIVE; no other write changes a lane. -/
theorem ParamId.lane_afterWrite (q : ParamId) (v : Mask) (s : State) (i : LaneId) :
    (q.afterWrite s.params { s with params := s.params.write q v }).lane i =
      if q = .strikeLimit ∧ v.toNat < s.params.strikeLimit ∧ (s.lane i).state = .active
          ∧ v.toNat - 1 < (s.lane i).strikes then
        { s.lane i with strikes := v.toNat - 1 }
      else s.lane i := by
  by_cases limit : q = .strikeLimit
  · subst limit
    simp only [ParamId.afterWrite, State.clampStrikes, Params.write, true_and]
    by_cases lowered : v.toNat < s.params.strikeLimit
    · simp only [lowered, if_true, true_and, State.lane, Table.get_map, Lane.clampStrikes]
    · simp only [lowered, if_false, false_and, State.lane]
  · rw [if_neg fun both => limit both.1]
    unfold ParamId.afterWrite
    split
    · exact absurd rfl limit
    · rfl
    · rfl
    · rfl

/-- Settles O27: the write stands at the end of the event, which has more work behind a floor or a ceiling alone. -/
theorem writeParamTaken : Obligations.WriteParamTaken := by
  rintro s h tag id a b c v q asks rfl known range fits
  let written : State := { s with params := s.params.write q (maskOf a b c) }
  let after : State := q.afterWrite s.params written
  have within : written.Within after := q.within_afterWrite written s.params
  have asks' : after.Asks h .writeParam tag [id, a, b, c] := within.asks (s := written) asks
  have ends : (after.answered h .writeParam tag .ok []).Within (after.answered h .writeParam tag .ok []).finish :=
    (kept_within _).finish (.refl _)
  refine ⟨(after.answered h .writeParam tag .ok []).finish, ?_, ends.params.trans within.params, ?_,
    State.link_finish_answered .., fun clear noFloor noCeiling i => ?_⟩
  · rw [State.exec_writeParam asks, State.takeWriteParam_of_known known, State.writeParam_of_good range fits,
      State.reply_of_asks asks']
  · rw [ends.params.trans within.params]
    exact s.params.read_write range
  · have calm : (after.answered h .writeParam tag .ok []).Unmarked :=
      (ParamId.afterWrite_scratch s.params written noFloor noCeiling).trans clear
    rw [State.finish_of_unmarked _ calm]
    exact q.lane_afterWrite _ s i

end Sys2Proof.Machine
end

section
/-! SUPPORT. Sys2Proof/Proofs/LoadEnd.lean: what the load makes of an image's records and joint checks, and the state that
the end of the configuration load leaves (R177 to R180). -/

namespace Sys2Proof.Machine

open Sys2Proof

/-! ### Records (R179) -/

/-- R179: the parameters behind a record. -/
def Params.withRecord (p : Params) (r : Byte × Mask) : Params :=
  match paramOf r.1 with
  | none => p
  | some id => p.write id (if id.inRange r.2 then r.2 else Params.read {} id)

/-- R179: a record of a parameter of the table with a value in its own range: no PARAM_DEFAULTED entry. -/
def goodRecord (r : Byte × Mask) : Prop := ∃ id, paramOf r.1 = some id ∧ id.inRange r.2 = true

theorem Loaded.params_record (r : Loaded) (rec : Byte × Mask) : (r.record rec).params = r.params.withRecord rec := by
  unfold Loaded.record Params.withRecord
  cases paramOf rec.1 with
  | none => rfl
  | some id =>
    dsimp only
    split <;> rfl

theorem Loaded.entries_record (r : Loaded) {rec : Byte × Mask} (good : goodRecord rec) :
    (r.record rec).entries = r.entries := by
  obtain ⟨id, known, range⟩ := good
  simp only [Loaded.record, known, range, if_true]

theorem Loaded.params_records (r : Loaded) (records : List (Byte × Mask)) :
    (records.foldl Loaded.record r).params = records.foldl Params.withRecord r.params := by
  induction records generalizing r with
  | nil => rfl
  | cons rec records ih => rw [List.foldl_cons, ih, Loaded.params_record, List.foldl_cons]

theorem Loaded.entries_records (r : Loaded) {records : List (Byte × Mask)} (good : ∀ rec ∈ records, goodRecord rec) :
    (records.foldl Loaded.record r).entries = r.entries := by
  induction records generalizing r with
  | nil => rfl
  | cons rec records ih =>
    obtain ⟨first, others⟩ := List.forall_mem_cons.mp good
    rw [List.foldl_cons, ih _ others, r.entries_record first]

/-- R179: a record sets a value in range or the built-in default. -/
theorem Params.Ranged.withRecord {p : Params} (h : p.Ranged) (r : Byte × Mask) : (p.withRecord r).Ranged := by
  unfold Params.withRecord
  split
  · exact h
  · rename_i id _
    refine h.write ?_
    split
    · assumption
    · exact id.inRange_default

theorem Params.Ranged.withRecords {p : Params} (h : p.Ranged) (records : List (Byte × Mask)) :
    (records.foldl Params.withRecord p).Ranged := by
  induction records generalizing p with
  | nil => exact h
  | cons r records ih => exact ih (h.withRecord r)

/-! ### Joint checks (R179) -/

/-- R179 joint check 1: the hold behind it. -/
def Params.checkedHold (p : Params) : Nat := if p.qualify < p.hold then min p.qualify 64 else p.hold

/-- R179 joint check 2: these are the floors behind it, each 0 where it stood above its ceiling. -/
def Params.FloorsChecked (p : Params) (floors : Table 6 Nat) : Prop :=
  ∀ h, floors.get h = if p.ceilings.get h < p.floors.get h then 0 else p.floors.get h

theorem Loaded.params_joinHold (r : Loaded) : r.joinHold.params = { r.params with hold := r.params.checkedHold } := by
  unfold Loaded.joinHold Params.checkedHold
  split <;> rfl

theorem Loaded.params_joinFloor (r : Loaded) (h : PortId) : (r.joinFloor h).params = { r.params with
    floors := r.params.floors.set h
      (if r.params.ceilings.get h < r.params.floors.get h then 0 else r.params.floors.get h) } := by
  unfold Loaded.joinFloor
  split
  · rfl
  · rw [Table.set_get_self]

/-- R179 joint check 2, for some of the ports. -/
theorem Loaded.params_joinFloors (r : Loaded) (ports : List PortId) : ∃ floors,
    (ports.foldl Loaded.joinFloor r).params = { r.params with floors := floors }
      ∧ ∀ h, floors.get h =
        if h ∈ ports ∧ r.params.ceilings.get h < r.params.floors.get h then 0 else r.params.floors.get h := by
  induction ports generalizing r with
  | nil => exact ⟨r.params.floors, rfl, fun h => (if_neg (by simp)).symm⟩
  | cons g ports ih =>
    obtain ⟨floors, params, values⟩ := ih (r.joinFloor g)
    rw [r.params_joinFloor g] at params values
    refine ⟨floors, params, fun h => ?_⟩
    rw [values h, Table.get_set]
    by_cases own : h = g
    · subst own
      by_cases above : r.params.ceilings.get h < r.params.floors.get h <;> simp [above]
    · simp [own]

theorem Loaded.params_joinFloorSum (r : Loaded) : r.joinFloorSum.params = { r.params with
    floors := if (lanesOf r.params.enableMask).length < r.params.floorSum then Table.fill 6 0 else r.params.floors } := by
  unfold Loaded.joinFloorSum
  split <;> rfl

/-- R179: the parameters behind the joint checks. -/
theorem Loaded.params_joint (r : Loaded) : ∃ floors, r.params.FloorsChecked floors ∧ r.joint.params = { r.params with
    hold := r.params.checkedHold
    floors := if (lanesOf r.params.enableMask).length < ((indexes 6).map floors.get).sum then Table.fill 6 0
      else floors } := by
  obtain ⟨floors, params, values⟩ := Loaded.params_joinFloors r.joinHold (indexes 6)
  rw [r.params_joinHold] at params values
  refine ⟨floors, fun h => by simpa using values h, ?_⟩
  rw [Loaded.joint, Loaded.params_joinFloorSum, params]
  rfl

theorem Params.FloorsChecked.unique {p : Params} {floors floors' : Table 6 Nat} (checked : p.FloorsChecked floors)
    (checked' : p.FloorsChecked floors') : floors = floors' :=
  Table.ext_get fun h => (checked h).trans (checked' h).symm

/-- R175, R179: behind the joint checks the three limits hold. -/
theorem Loaded.jointOk_joint (r : Loaded) : r.joint.params.jointOk = true := by
  obtain ⟨floors, checked, params⟩ := r.params_joint
  rw [params, Params.jointOk_iff]
  refine ⟨?_, fun h => ?_, ?_⟩
  · simp only [Params.checkedHold]
    split <;> omega
  · dsimp only
    split
    · rw [Table.get_fill]
      exact Nat.zero_le _
    · rw [checked h]
      split <;> omega
  · by_cases above : (lanesOf r.params.enableMask).length < ((indexes 6).map floors.get).sum
    · have noFloor : ((indexes 6).map (Table.fill 6 0).get).sum = 0 := by decide
      simp only [Params.floorSum, if_pos above, noFloor, Nat.zero_le]
    · simp only [Params.floorSum, if_neg above]
      exact not_lt.mp above

/-- R179: the checked floors are the floors as they stand only where none stands above its ceiling. -/
theorem Params.FloorsChecked.floors_le {p : Params} (same : p.FloorsChecked p.floors) (h : PortId) :
    p.floors.get h ≤ p.ceilings.get h := by
  have checked := same h
  split at checked <;> omega

/-- R179: the joint checks leave every other parameter alone. -/
theorem Loaded.ranged_joint {r : Loaded} (h : r.params.Ranged) : r.joint.params.Ranged := by
  obtain ⟨floors, -, params⟩ := r.params_joint
  rw [params]
  exact { h with }

/-- R179: parameters that meet the three limits pass the joint checks as they are, without an entry. -/
theorem Loaded.joint_of_jointOk {r : Loaded} (ok : r.params.jointOk = true) : r.joint = r := by
  obtain ⟨hold, floors, floorSum⟩ := r.params.jointOk_iff.mp ok
  have first : r.joinHold = r := if_neg (not_lt.mpr hold)
  have each (ports : List PortId) : ports.foldl Loaded.joinFloor r = r := by
    induction ports with
    | nil => rfl
    | cons g ports ih =>
      have one : r.joinFloor g = r := if_neg (not_lt.mpr (floors g))
      rw [List.foldl_cons, one, ih]
  rw [Loaded.joint, first, each]
  exact if_neg (not_lt.mpr floorSum)

/-! ### Images (R177, R178) -/

section Image

variable {image : List Byte}

theorem noResponse_iff : noResponse image = true ↔ (List.range 4).map (imageByte image) = [0xFF, 0xFF, 0xFF, 0xFF] :=
  decide_eq_true_iff

theorem headerOk_iff : headerOk image = true ↔ (List.range 4).map (imageByte image) = [0xA5, 0x5A, 0xC3, 0x3C]
    ∧ imageByte image 4 = 0x01 ∧ imageCount image ≤ 64 :=
  decide_eq_true_iff

theorem imageCheckOk_iff : imageCheckOk image = true ↔
    crc ((List.range (6 + 4 * imageCount image)).map (imageByte image))
      = halfOf (imageByte image (6 + 4 * imageCount image)) (imageByte image (6 + 4 * imageCount image + 1)) :=
  decide_eq_true_iff

/-- R178 case 1. -/
theorem loadImage_of_silent (silent : noResponse image = true) : loadImage image = ⟨{}, [(.configDefaulted, 1)]⟩ :=
  if_pos silent

/-- R178 case 2. -/
theorem loadImage_of_badHeader (speaks : ¬ noResponse image = true) (bad : ¬ headerOk image = true) :
    loadImage image = ⟨{}, [(.configDefaulted, 2)]⟩ := by
  simp [loadImage, speaks, bad]

/-- R178 case 3. -/
theorem loadImage_of_badCheck (speaks : ¬ noResponse image = true) (header : headerOk image = true)
    (bad : ¬ imageCheckOk image = true) : loadImage image = ⟨{}, [(.configDefaulted, 3)]⟩ := by
  simp [loadImage, speaks, header, bad]

/-- R179: what the records and the joint checks of a good image leave, before CONFIG_LOADED. -/
def imageLoaded (image : List Byte) : Loaded := ((imageRecords image).foldl Loaded.record ⟨{}, []⟩).joint

/-- R179: the parameters behind the records of an image, before the joint checks. -/
def imageParams (image : List Byte) : Params := (imageRecords image).foldl Params.withRecord {}

/-- R179: the parameters of a good image, from those behind its records. -/
theorem params_imageLoaded {floors : Table 6 Nat} (checked : (imageParams image).FloorsChecked floors) :
    (imageLoaded image).params = { imageParams image with
      hold := (imageParams image).checkedHold
      floors := if (lanesOf (imageParams image).enableMask).length < ((indexes 6).map floors.get).sum then Table.fill 6 0
        else floors } := by
  have recorded := Loaded.params_records ⟨{}, []⟩ (imageRecords image)
  change _ = imageParams image at recorded
  obtain ⟨floors', checked', params⟩ := Loaded.params_joint ((imageRecords image).foldl Loaded.record ⟨{}, []⟩)
  rw [recorded] at checked' params
  rw [checked.unique checked']
  exact params

/-- R179: good records and parameters that meet the three limits make no entry. -/
theorem entries_imageLoaded (good : ∀ r ∈ imageRecords image, goodRecord r) (ok : (imageParams image).jointOk = true) :
    (imageLoaded image).entries = [] := by
  have recorded := Loaded.params_records ⟨{}, []⟩ (imageRecords image)
  change _ = imageParams image at recorded
  rw [← recorded] at ok
  rw [imageLoaded, Loaded.joint_of_jointOk ok, Loaded.entries_records _ good]

/-- R175, R179: records set values in range, and the joint checks see to the limits. -/
theorem legal_imageLoaded (image : List Byte) : (imageLoaded image).params.Legal := by
  have defaults : Params.Ranged {} := ((Params.legal_iff _).mp Params.legal_default).1
  unfold imageLoaded
  generalize recorded : (imageRecords image).foldl Loaded.record ⟨{}, []⟩ = r
  have ranged : r.params.Ranged := by
    rw [← recorded, Loaded.params_records]
    exact defaults.withRecords _
  exact (Params.legal_iff _).mpr ⟨Loaded.ranged_joint ranged, r.jointOk_joint⟩

/-- R178 case 4. -/
theorem loadImage_of_good (speaks : ¬ noResponse image = true) (header : headerOk image = true)
    (check : imageCheckOk image = true) : loadImage image =
      ⟨(imageLoaded image).params,
        (imageLoaded image).entries ++ [(.configLoaded, BitVec.ofNat 16 (imageCount image))]⟩ := by
  simp [loadImage, speaks, header, check, imageLoaded]

/-- R177: the header is all that is clocked in where nothing responds or the header is bad. -/
theorem imageClocked_of_header (bad : noResponse image = true ∨ ¬ headerOk image = true) : imageClocked image = 6 :=
  if_pos (by simpa using bad)

theorem imageClocked_of_records (speaks : ¬ noResponse image = true) (header : headerOk image = true) :
    imageClocked image = 8 + 4 * imageCount image :=
  if_neg (by simp [speaks, header])

/-- R178, R179: every image leaves legal parameters. -/
theorem legal_loadImage (image : List Byte) : (loadImage image).params.Legal := by
  by_cases silent : noResponse image = true
  · rw [loadImage_of_silent silent]
    exact Params.legal_default
  · by_cases header : headerOk image = true
    · by_cases check : imageCheckOk image = true
      · rw [loadImage_of_good silent header check]
        dsimp only
        exact legal_imageLoaded image
      · rw [loadImage_of_badCheck silent header check]
        exact Params.legal_default
    · rw [loadImage_of_badHeader silent header]
      exact Params.legal_default

end Image

/-! ### The end of the load (R180) -/

/-- R178, R179: the load's entries enter the fault log in order. -/
def State.logEntries (s : State) (entries : List (LogKind × Half)) : State :=
  entries.foldl (fun s e => s.log e.1 none none e.2) s

/-- R168: log entries touch the fault log alone. -/
theorem State.logEntries_eq (s : State) (entries : List (LogKind × Half)) : s.logEntries entries =
    { s with ring := (s.logEntries entries).ring, nextEntry := (s.logEntries entries).nextEntry } := by
  induction entries generalizing s with
  | nil => rfl
  | cons e entries ih => exact ih (s.log e.1 none none e.2)

theorem State.logEntries_params (s : State) (p : Params) (entries : List (LogKind × Half)) :
    State.logEntries { s with params := p } entries = { s.logEntries entries with params := p } := by
  induction entries generalizing s with
  | nil => rfl
  | cons e entries ih => exact ih (s.log e.1 none none e.2)

theorem State.logEntries_append (s : State) (entries : List (LogKind × Half)) (e : LogKind × Half) :
    s.logEntries (entries ++ [e]) = (s.logEntries entries).log e.1 none none e.2 :=
  List.foldl_append ..

/-- R180: the state that the load's end leaves. -/
theorem State.endLoad_eq (s : State) (image : List Byte) : s.endLoad image =
    { s with
      params := (loadImage image).params
      ring := (s.logEntries (loadImage image).entries).ring
      nextEntry := (s.logEntries (loadImage image).entries).nextEntry
      ports := s.ports.map fun p => { p with cursor := (s.logEntries (loadImage image).entries).oldestEntry }
      loading := false
      configPort := ⟨configCommand, imageClocked image⟩
      trunk := .joining
      peerHeard := false
      clash := false
      peerEnable := none
      peerFences := none
      fenceChanges := []
      joinSent := false
      txFrames := s.txFrames.filter fun f => !isJoin f
      joinMask := some (loadImage image).params.enableMask
      sweepTimer := .running (loadImage image).params.sweepInterval
      controlTimer := .running (loadImage image).params.controlTick } := by
  have logged := State.logEntries_params s (loadImage image).params (loadImage image).entries
  rw [State.logEntries_eq s] at logged
  unfold State.endLoad
  dsimp only
  change State.logEntries { s with params := (loadImage image).params } _ = _ at logged
  rw [State.logEntries] at logged
  rw [logged]
  rfl

/-- R180: every cursor names the oldest entry, and a port's record is otherwise as it was. -/
theorem State.port_endLoad (s : State) (image : List Byte) (h : PortId) :
    (s.endLoad image).port h = { s.port h with cursor := (s.endLoad image).oldestEntry } := by
  rw [State.endLoad_eq, State.port, Table.get_map]
  rfl

@[simp] theorem State.params_endLoad (s : State) (image : List Byte) :
    (s.endLoad image).params = (loadImage image).params := by
  rw [State.endLoad_eq]

@[simp] theorem State.ring_endLoad (s : State) (image : List Byte) :
    (s.endLoad image).ring = (s.logEntries (loadImage image).entries).ring := by
  rw [State.endLoad_eq]

@[simp] theorem State.configPort_endLoad (s : State) (image : List Byte) :
    (s.endLoad image).configPort = ⟨configCommand, imageClocked image⟩ := by
  rw [State.endLoad_eq]

/-- CONFIG_LOAD_END is taken while the load is in progress. -/
theorem State.exec_configLoadEnd {s : State} (loading : s.loading = true) (image : List Byte) :
    exec (.configLoadEnd image) s = .next (s.endLoad image) :=
  congrArg Host.Outcome.next (if_pos loading)

/-- R179: the entries of a good image end with CONFIG_LOADED and the record count. -/
theorem State.ring_logEntries_loaded (s : State) (entries : List (LogKind × Half)) (count : Half) :
    (s.logEntries (entries ++ [(.configLoaded, count)])).ring.getLast?.map (fun e => (e.kind, e.detail))
      = some (.configLoaded, count) := by
  rw [State.logEntries_append, State.getLast?_log]
  rfl

/-- Settles O7, by the four cases of R178. -/
theorem configLoadEnds : Obligations.ConfigLoadEnds := by
  intro image s loading
  refine ⟨s.endLoad image, State.exec_configLoadEnd loading image, rfl, rfl, rfl, rfl, rfl, rfl, rfl,
    fun h => by rw [State.port_endLoad], rfl, ?_⟩
  rw [State.params_endLoad, State.ring_endLoad, State.configPort_endLoad]
  refine ⟨fun high => ?_, fun driven => ?_⟩
  · have silent := noResponse_iff.mpr high
    rw [loadImage_of_silent silent, imageClocked_of_header (.inl silent)]
    exact ⟨rfl, rfl, rfl⟩
  have speaks := mt noResponse_iff.mp driven
  refine ⟨fun wrong => ?_, fun signature version few n size => ?_⟩
  · have bad : ¬ headerOk image = true := fun ok => by
      obtain ⟨signature, version, few⟩ := headerOk_iff.mp ok
      rcases wrong with differs | differs | many
      · exact differs signature
      · exact differs version
      · exact absurd many (not_lt.mpr few)
    rw [loadImage_of_badHeader speaks bad, imageClocked_of_header (.inr bad)]
    exact ⟨rfl, rfl, rfl⟩
  · subst size
    have header := headerOk_iff.mpr ⟨signature, version, few⟩
    have clocked : imageClocked image = 6 + 4 * imageCount image + 2 := by
      rw [imageClocked_of_records speaks header]
      omega
    refine ⟨clocked, fun differs => ?_, fun agrees => ?_⟩
    · rw [loadImage_of_badCheck speaks header (mt imageCheckOk_iff.mp differs)]
      exact ⟨rfl, rfl⟩
    · rw [loadImage_of_good speaks header (imageCheckOk_iff.mpr agrees)]
      dsimp only
      refine ⟨s.ring_logEntries_loaded _ (BitVec.ofNat 16 (imageCount image)),
        fun records p floors isRecords isParams checked => ?_⟩
      obtain rfl : records = imageRecords image := isRecords
      obtain rfl : p = imageParams image := isParams
      refine ⟨params_imageLoaded checked, fun good hold same sum => ?_⟩
      have floorsLe := Params.FloorsChecked.floors_le (same ▸ checked)
      rw [same] at sum
      rw [entries_imageLoaded good ((Params.jointOk_iff _).mpr ⟨hold, floorsLe, sum⟩), imageRecords, List.length_map,
        List.length_range]
      rfl

end Sys2Proof.Machine
end

section
/-! SUPPORT. Sys2Proof/Proofs/Counts.lean: straps, counts and parameters through every command (R97, R138, R148, R174,
R175), and the parameters' legality after every step (R175, R176, R179, R182). -/

namespace Sys2Proof.Machine

open Sys2Proof

/-! ### What stands through an event -/

/-- R148, R174: straps as they were. -/
def State.StrapsHold (s t : State) : Prop := t.side = s.side ∧ ∀ h, (t.port h).steering = (s.port h).steering

/-- R138: all that a JOIN leaves alone of straps, counts and parameters. -/
def State.JoinFrame (s t : State) : Prop := s.StrapsHold t ∧ t.sweepCount = s.sweepCount ∧ t.params = s.params

/-- Straps, counts and parameters as they were. -/
def State.Steady (s t : State) : Prop := s.JoinFrame t ∧ t.sessions = s.sessions

section

variable {s t u : State}

theorem State.Steady.refl (s : State) : s.Steady s := ⟨⟨⟨rfl, fun _ => rfl⟩, rfl, rfl⟩, rfl⟩

theorem State.Within.straps (w : t.Within u) (h : s.StrapsHold t) : s.StrapsHold u := by
  obtain ⟨side, steering⟩ := h
  refine ⟨w.side.trans side, fun g => ?_⟩
  obtain ⟨ns, port⟩ := w.port g
  rw [port]
  exact steering g

/-- The shared work leaves alone what a JOIN does. -/
theorem kept_joinFrame (s : State) : Kept s.JoinFrame :=
  kept_of_within fun _ _ w h => by
    obtain ⟨straps, sweeps, params⟩ := h
    exact ⟨w.straps straps, w.sweepCount.trans sweeps, w.params.trans params⟩

theorem State.Steady.within (h : s.Steady t) (w : t.Within u) : s.Steady u := by
  obtain ⟨⟨straps, sweeps, params⟩, sessions⟩ := h
  exact ⟨⟨w.straps straps, w.sweepCount.trans sweeps, w.params.trans params⟩, w.sessions.trans sessions⟩

theorem State.Within.steady (w : s.Within t) : s.Steady t := (State.Steady.refl s).within w

/-- The shared work moves no strap, no count and no parameter. -/
theorem kept_steady (s : State) : Kept s.Steady := kept_of_within fun _ _ w h => h.within w

/-- A port record changed, but for its steering flag. -/
theorem State.Steady.modPort (h : s.Steady t) (g : PortId) (f : Port → Port)
    (hf : (f (t.port g)).steering = (t.port g).steering) : s.Steady (t.modPort g f) := by
  obtain ⟨⟨⟨side, steering⟩, sweeps, params⟩, sessions⟩ := h
  refine ⟨⟨⟨side, fun j => ?_⟩, sweeps, params⟩, sessions⟩
  rw [State.port_modPort]
  split
  · rename_i own
    rw [hf, own]
    exact steering g
  · exact steering j

theorem State.steady_discardFrame (s : State) : s.Steady s.discardFrame := by
  unfold State.discardFrame
  split <;> exact .refl s

/-! ### Transactions, presence and requests (R149, R154, R164, R165) -/

theorem Port.steering_writeRequest (loading : Bool) (bytes : List Byte) (p : Port) :
    (p.writeRequest loading bytes).steering = p.steering := by
  unfold Port.writeRequest
  split
  · rfl
  · split <;> rfl
  · rfl
  · rfl

theorem Port.steering_replyRead (n : Nat) (p : Port) (tr : Transaction) :
    (p.replyRead n tr).steering = p.steering := by
  unfold Port.replyRead
  split
  · split <;> rfl
  · rfl

theorem Port.steering_noticeRead (n : Nat) (p : Port) (tr : Transaction) :
    (p.noticeRead n tr).steering = p.steering := by
  unfold Port.noticeRead
  split <;> rfl

/-- R149: a transaction ends on its port's record alone. -/
theorem State.steady_endTransaction (s : State) (g : PortId) (code : Byte) (n : Nat)
    (frame : Port → Transaction → List Byte) {act : Port → Transaction → Port}
    (effect : ∀ p tr, (act p tr).steering = p.steering) : s.Steady (s.endTransaction g code n frame act) := by
  have begun : s.Steady (if (s.port g).transaction = none then s.takeCommand g code else s) := by
    split
    · exact (State.Steady.refl s).modPort g _ rfl
    · exact .refl s
  unfold State.endTransaction
  dsimp only
  split
  · exact begun
  · rename_i tr _
    split
    · exact begun
    · refine begun.modPort g _ ?_
      dsimp only
      split
      · rfl
      · exact effect _ tr

theorem State.steady_arrive (s : State) (g : PortId) : s.Steady (s.arrive g) :=
  (State.Steady.refl s).modPort g _ rfl

theorem State.steady_depart (s : State) (g : PortId) : s.Steady (s.depart g) := by
  have k := kept_steady s
  have gone : s.Steady (s.modPort g Port.depart) := (State.Steady.refl s).modPort g _ rfl
  exact k.finish (k.dropEntries (k.foldl _ (fun _ _ h => k.beginClose h _ _) _ gone) _)

/-- A port that holds no such request has none taken. -/
theorem State.steady_takeRequest {g : PortId} {kind : ReqKind} {act : List Byte → State}
    (owner : ∀ b, s.Steady (act b)) : s.Steady (s.takeRequest g kind act) := by
  unfold State.takeRequest
  split
  · exact .refl s
  · exact owner _

/-- R154: an answered request moves no strap, no count and no parameter. -/
theorem State.Replies.steady {g : PortId} {cursor : Half} (r : s.Replies g cursor t) : s.Steady t := by
  obtain ⟨link, w⟩ := r
  exact State.Steady.within ((State.Steady.refl s).modPort g _ rfl) w

/-! ### JOIN and the load's end (R138, R140, R143, R180) -/

/-- R141: going UP moves the session count. -/
theorem State.JoinFrame.goUp (h : s.JoinFrame t) : s.JoinFrame t.goUp := by
  have k := kept_joinFrame s
  have changes (v : State) (hv : s.JoinFrame v) : s.JoinFrame v.sendFenceChanges := by
    refine k.fenceChanges (k.foldl _ (fun w i hw => ?_) _ hv) _
    unfold State.sendFenceChange
    split <;> exact k.send hw _
  have rebuilt (v : State) (hv : s.JoinFrame v) : s.JoinFrame v.rebuildLanes := by
    obtain ⟨_, _, e, -⟩ := v.rebuildLanes_eq
    rw [e]
    exact hv
  have joined : s.JoinFrame (t.openSession.sendJoin true true) := h
  exact k.notifyAll (rebuilt _ (changes _ (k.log _ _ _ _ _ joined))) _

theorem State.joinFrame_joinWhileJoining (s : State) (j : JoinInfo) : s.JoinFrame (s.joinWhileJoining j) := by
  have start : s.JoinFrame s := (State.Steady.refl s).1
  have heard : s.JoinFrame
      (State.received { s with peerHeard := true, peerEnable := some j.enable, peerFences := some j.fences }) := start
  unfold State.joinWhileJoining
  split
  · split <;> exact start
  · dsimp only
    split
    · exact (kept_joinFrame s).finish heard.goUp
    · exact start

theorem State.joinFrame_joinUp (s : State) (j : JoinInfo) : s.JoinFrame (s.joinUp j) := by
  have k := kept_joinFrame s
  have start : s.JoinFrame s := (State.Steady.refl s).1
  have silenced : s.JoinFrame (State.received { s with silenceCount := 0 }) := start
  unfold State.joinUp
  dsimp only
  split
  · exact k.finish (k.goLost silenced _)
  · split
    · exact start
    · split
      · exact start
      · exact k.finish (k.goLost silenced _)

theorem State.joinFrame_receiveJoin (s : State) (j : JoinInfo) : s.JoinFrame (s.receiveJoin j) := by
  have start : s.JoinFrame s := (State.Steady.refl s).1
  have discarded : s.JoinFrame s.discardFrame := s.steady_discardFrame.1
  unfold State.receiveJoin
  split
  · split
    · exact discarded
    · exact s.joinFrame_joinWhileJoining j
  · exact s.joinFrame_joinUp j
  · exact start
  · exact discarded

/-- R180: the load's end sets the parameters. -/
theorem State.steady_endLoad (s : State) (image : List Byte) :
    State.Steady { s with params := (loadImage image).params } (s.endLoad image) := by
  refine ⟨⟨⟨?_, fun h => ?_⟩, ?_, s.params_endLoad image⟩, ?_⟩
  · rw [State.endLoad_eq]
  · rw [State.port_endLoad]
    rfl
  · rw [State.endLoad_eq]
  · rw [State.endLoad_eq]

end

/-! ### Every command -/

/-- R97: the sweep tick, and the rows that name a sweep tick by what happens at it. -/
def isSweepTick (c : Instr) : Prop :=
  c = .sweepTick ∨ (∃ i, c = .quarantineRelease i) ∨ (∃ h g, c = .openExpired h g) ∨ ∃ d p, c = .seekExhausted d p

/-- R97, R138, R148, R174, R175: straps hold, and counts and parameters move at their own events alone. -/
def State.CountsMove (s : State) (c : Instr) (t : State) : Prop :=
  t.side = s.side ∧ (∀ h, (t.port h).steering = (s.port h).steering)
    ∧ (t.sweepCount ≠ s.sweepCount → isSweepTick c)
    ∧ (t.sessions ≠ s.sessions → ∃ q a j, c = .join q a j ∨ c = .joinWhileUp q a j)
    ∧ (t.params ≠ s.params → (∃ m, c = .configLoadEnd m) ∨ ∃ h, c = .writeParam h)

section

variable {s t : State}

theorem State.Steady.countsMove (h : s.Steady t) (c : Instr) : s.CountsMove c t := by
  obtain ⟨⟨⟨side, steering⟩, sweeps, params⟩, sessions⟩ := h
  exact ⟨side, steering, (absurd sweeps ·), (absurd sessions ·), (absurd params ·)⟩

theorem State.countsMove_of_sweep (h : State.FramedBy s.sweepBase t) {c : Instr} (sweep : isSweepTick c) :
    s.CountsMove c t := by
  obtain ⟨⟨⟨side, steering⟩, -, params⟩, sessions⟩ := State.Within.steady h
  exact ⟨side, steering, fun _ => sweep, (absurd sessions ·), (absurd params ·)⟩

theorem State.JoinFrame.countsMove (h : s.JoinFrame t) {c : Instr}
    (join : ∃ q a j, c = .join q a j ∨ c = .joinWhileUp q a j) : s.CountsMove c t := by
  obtain ⟨⟨side, steering⟩, sweeps, params⟩ := h
  exact ⟨side, steering, (absurd sweeps ·), fun _ => join, (absurd params ·)⟩

theorem State.countsMove_of_params {p : Params} (h : State.Steady { s with params := p } t) {c : Instr}
    (sets : (∃ m, c = .configLoadEnd m) ∨ ∃ h, c = .writeParam h) : s.CountsMove c t := by
  obtain ⟨⟨⟨side, steering⟩, sweeps, -⟩, sessions⟩ := h
  exact ⟨side, steering, (absurd sweeps ·), (absurd sessions ·), fun _ => sets⟩

/-- R132: a sequenced message moves the expected seq of what `State.Within` names. -/
theorem exec_steady_of_message {m : Msg} {q a : Seq} (e : exec (m.command q a) s = .next t) : s.Steady t :=
  State.Within.steady (s := s.messageBase t) (exec_message_framed m q a e)

/-- R88: a dwell result moves its lane's last good preset. -/
theorem exec_steady_of_dwellResult {u : UnitId} {o : DwellOutcome} (e : exec (.dwellResult u o) s = .next t) :
    s.Steady t := by
  cases busy : s.unit u with
  | none =>
    have idle : exec (.dwellResult u o) s = .next s := by
      refine congrArg Host.Outcome.next ?_
      rw [busy]
    cases idle.symm.trans e
    exact .refl s
  | some d => exact State.Within.steady (s := s.resultBase d.lane t) (exec_dwellResult_framed e busy)

/-- Every command but device reset moves counts and parameters at their own events alone. -/
theorem exec_countsMove (c : Instr) (e : exec c s = .next t)
    (live : ∀ side steer present, c ≠ .deviceReset side steer present) : s.CountsMove c t := by
  have k := kept_steady s
  have start := State.Steady.refl s
  cases c with
  | deviceReset side steer present => exact absurd rfl (live side steer present)
  | configLoadEnd image =>
    cases e
    split
    · exact State.countsMove_of_params (s.steady_endLoad image) (.inl ⟨image, rfl⟩)
    · exact start.countsMove _
  | hostArrival g =>
    cases e
    split
    · exact start.countsMove _
    · exact (s.steady_arrive g).countsMove _
  | hostDeparture g =>
    cases e
    split
    · exact (s.steady_depart g).countsMove _
    · exact start.countsMove _
  | commandByte g code => cases e; exact (start.modPort g _ rfl).countsMove _
  | writeRequest g bytes =>
    cases e
    exact (s.steady_endTransaction g _ _ _ fun p _ => p.steering_writeRequest _ _).countsMove _
  | readReply g n => cases e; exact (s.steady_endTransaction g _ _ _ (Port.steering_replyRead n)).countsMove _
  | readNotice g n => cases e; exact (s.steady_endTransaction g _ _ _ (Port.steering_noticeRead n)).countsMove _
  | readStatus g n =>
    cases e
    exact (s.steady_endTransaction g _ n _ (act := fun p _ => { p with rejected := false }) fun _ _ => rfl).countsMove _
  | unknownCommand g code n =>
    cases e
    split
    · exact start.countsMove _
    · exact (s.steady_endTransaction g _ _ _ fun _ _ => rfl).countsMove _
  | openCircuit g =>
    cases e
    refine (State.steady_takeRequest fun b => ?_).countsMove _
    obtain ⟨_, r⟩ := s.takeOpen_replies g b (s.requestTag g)
    exact r.steady
  | closeRequest g => cases e; exact (State.steady_takeRequest fun b => (s.takeClose_replies g b).steady).countsMove _
  | withdraw g => cases e; exact (State.steady_takeRequest fun b => (s.takeWithdraw_replies g b).steady).countsMove _
  | circuitStatus g =>
    cases e; exact (State.steady_takeRequest fun b => (s.takeCircuitStatus_replies g b).steady).countsMove _
  | laneStatus g => cases e; exact (State.steady_takeRequest fun b => (s.takeLaneStatus_replies g b).steady).countsMove _
  | trunkStatus g =>
    cases e; exact (State.steady_takeRequest fun _ => ((s.replies_self g).reply _ _).steady).countsMove _
  | readLog g =>
    cases e
    refine (State.steady_takeRequest fun b => ?_).countsMove _
    obtain ⟨_, r⟩ := s.takeReadLog_replies g b
    exact r.steady
  | readParam g => cases e; exact (State.steady_takeRequest fun b => (s.takeReadParam_replies g b).steady).countsMove _
  | writeParam g =>
    cases e
    unfold State.takeRequest
    split
    · exact start.countsMove _
    · rename_i r _
      obtain ⟨_, replies⟩ := s.takeWriteParam_replies g r.params
      exact State.countsMove_of_params replies.steady (.inr ⟨g, rfl⟩)
  | fenceLane g =>
    cases e
    exact (State.steady_takeRequest fun b =>
      (s.takeLane1_replies g b _ fun i => (kept_within s).fenceByHost (.refl s) i).steady).countsMove _
  | unfenceLane g =>
    cases e
    exact (State.steady_takeRequest fun b =>
      (s.takeLane1_replies g b _ fun i => (kept_within s).unfenceByHost (.refl s) i).steady).countsMove _
  | restartTrunk g =>
    cases e
    refine (State.steady_takeRequest fun _ => ?_).countsMove _
    obtain ⟨_, _, _, _, _, _, r⟩ := s.restart_replies g
    exact r.steady
  | badFrame => cases e; split <;> exact start.countsMove _
  | join q a j => cases e; exact (s.joinFrame_receiveJoin j).countsMove ⟨q, a, j, .inl rfl⟩
  | joinWhileUp q a j => cases e; exact (s.joinFrame_receiveJoin j).countsMove ⟨q, a, j, .inr rfl⟩
  | ack _ a =>
    cases e
    split
    · exact (k.acknowledge (s := { s with silenceCount := 0 }) start a).countsMove _
    · exact s.steady_discardFrame.countsMove _
  | setup _ _ g far near cls rw mw pairs =>
    exact (exec_steady_of_message (m := .setup g far near cls rw mw pairs) e).countsMove _
  | accept _ _ g slot => exact (exec_steady_of_message (m := .accept g slot) e).countsMove _
  | refuse _ _ g r lanes => exact (exec_steady_of_message (m := .refuse g r lanes) e).countsMove _
  | trained _ _ g p ok => exact (exec_steady_of_message (m := .trained g p ok) e).countsMove _
  | laneFail _ _ g p r => exact (exec_steady_of_message (m := .laneFail g p r) e).countsMove _
  | amend _ _ g p l => exact (exec_steady_of_message (m := .amend g p l) e).countsMove _
  | amendReply _ _ g p r => exact (exec_steady_of_message (m := .amendReply g p r) e).countsMove _
  | close _ _ g r => exact (exec_steady_of_message (m := .close g r) e).countsMove _
  | closed _ _ g => exact (exec_steady_of_message (m := .closed g) e).countsMove _
  | fence _ _ l r => exact (exec_steady_of_message (m := .fence l r) e).countsMove _
  | unfence _ _ l => exact (exec_steady_of_message (m := .unfence l) e).countsMove _
  | frameTransmit => cases e; unfold State.beginFrame; split <;> exact start.countsMove _
  | controlTick | retransmit | tccRetry | peerSilent =>
    cases e; exact State.Steady.countsMove (State.Within.steady (s.controlTickIf_framed _)) _
  | sweepTick => cases e; exact State.countsMove_of_sweep (s.sweepTickIf_framed _) (.inl rfl)
  | quarantineRelease i => cases e; exact State.countsMove_of_sweep (s.sweepTickIf_framed _) (.inr (.inl ⟨i, rfl⟩))
  | openExpired g b =>
    cases e; exact State.countsMove_of_sweep (s.sweepTickIf_framed _) (.inr (.inr (.inl ⟨g, b, rfl⟩)))
  | seekExhausted d p =>
    cases e; exact State.countsMove_of_sweep (s.sweepTickIf_framed _) (.inr (.inr (.inr ⟨d, p, rfl⟩)))
  | dwellResult => exact (exec_steady_of_dwellResult e).countsMove _
  | lossOfLock => exact (exec_lossOfLock_within e).steady.countsMove _

end

/-- Settles O2, by the command. -/
theorem countsMoveAtTheirEvents : Obligations.CountsMoveAtTheirEvents := by
  intro c s t e live
  exact exec_countsMove c e live

/-! ### Legal parameters (R175, R176, R179, R182) -/

theorem State.legal_writeParam {s : State} (h : s.params.Legal) (g : PortId) (q : ParamId) (v : Mask) :
    (s.writeParam g q v).params.Legal := by
  by_cases bad : q.inRange v = false ∨ s.params.breaksJoint q v = true
  · rw [State.writeParam_of_bad bad]
    exact h
  · obtain ⟨range, fits⟩ := not_or.mp bad
    rw [Bool.not_eq_false] at range
    rw [Bool.not_eq_true] at fits
    let written : State := { s with params := s.params.write q v }
    let replied : State := (q.afterWrite s.params written).reply g .ok []
    have after : (q.afterWrite s.params written).params = s.params.write q v :=
      (q.within_afterWrite written s.params).params
    have ends : replied.Within replied.finish := (kept_within replied).finish (.refl replied)
    rw [State.writeParam_of_good range fits, ends.params.trans after]
    exact h.write range fits

theorem State.legal_takeWriteParam {s : State} (h : s.params.Legal) (g : PortId) (b : List Byte) :
    (s.takeWriteParam g b).params.Legal := by
  unfold State.takeWriteParam
  split
  · split
    · exact h
    · exact s.legal_writeParam h g _ _
  · exact h

/-- R175: every command keeps the parameters legal: reset and load set them, a write is checked, no other moves them. -/
theorem exec_legal {s t : State} (h : s.params.Legal) (c : Instr) (e : exec c s = .next t) : t.params.Legal := by
  by_cases reset : ∃ side steer present, c = .deviceReset side steer present
  · obtain ⟨side, steer, present, rfl⟩ := reset
    cases e
    exact Params.legal_default
  · have live (side : Side) (steer present : Table 6 Bool) : c ≠ .deviceReset side steer present :=
      fun is => reset ⟨side, steer, present, is⟩
    obtain ⟨-, -, -, -, moves⟩ := exec_countsMove c e live
    by_cases stands : t.params = s.params
    · rw [stands]
      exact h
    · rcases moves stands with ⟨image, rfl⟩ | ⟨g, rfl⟩
      · cases e
        split
        · rw [State.params_endLoad]
          exact legal_loadImage image
        · exact h
      · cases e
        unfold State.takeRequest
        split
        · exact h
        · exact State.legal_takeWriteParam h g _

/-- Settles O11: legality is kept by every command. -/
theorem stepKeepsParameters : Obligations.StepKeepsParameters := by
  intro s t h e
  unfold step at e
  split at e
  · cases e
    exact h
  · rename_i c rest _
    exact exec_legal (s := { s with pending := rest }) h c e

end Sys2Proof.Machine
end

section
/-! SUPPORT. Sys2Proof/Proofs/Queue.lean: the queue of commands (log entry 1): every command leaves a next state, and
none touches the queue. -/

namespace Sys2Proof.Machine

open Sys2Proof

/-- The shared work leaves the queue of commands alone. -/
theorem kept_pending (s : State) : Kept fun t => t.pending = s.pending :=
  kept_of_within fun _ _ w h => w.pending.trans h

/-! ### Ports and requests (R149, R154, R165) -/

theorem State.endTransaction_pending (s : State) (g : PortId) (code : Byte) (n : Nat)
    (frame : Port → Transaction → List Byte) (act : Port → Transaction → Port) :
    (s.endTransaction g code n frame act).pending = s.pending := by
  have begun : (if (s.port g).transaction = none then s.takeCommand g code else s).pending = s.pending := by
    split <;> rfl
  unfold State.endTransaction
  dsimp only
  split
  · exact begun
  · split <;> exact begun

theorem State.depart_pending (s : State) (g : PortId) : (s.depart g).pending = s.pending := by
  have k := kept_pending s
  exact k.finish (k.dropEntries
    (k.foldl State.departCircuit (fun _ _ h => k.beginClose h _ _) _ (s.modPort_pending g Port.depart)) _)

/-- R154: what a request leaves alone includes the queue. -/
theorem State.RequestFrame.pending {c : Instr} {s t : State} {g : PortId} (f : State.RequestFrame c s g t) :
    t.pending = s.pending := by
  obtain ⟨-, -, _, _, -, w⟩ := f
  exact w.pending

/-! ### Frames and dwell results (R75, R127, R132, R140 to R143, R145) -/

theorem exec_pending_of_message {s t : State} {m : Msg} {q a : Seq} (e : exec (m.command q a) s = .next t) :
    t.pending = s.pending :=
  State.Within.pending (s := s.messageBase t) (exec_message_framed m q a e)

theorem exec_dwellResult_pending {s t : State} {u : UnitId} {o : DwellOutcome}
    (e : exec (.dwellResult u o) s = .next t) : t.pending = s.pending := by
  cases busy : s.unit u with
  | none => cases e; rw [busy]
  | some d => exact State.Within.pending (s := s.resultBase d.lane t) (exec_dwellResult_framed e busy)

theorem State.discardFrame_pending (s : State) : s.discardFrame.pending = s.pending := by
  unfold State.discardFrame
  split <;> rfl

theorem State.rebuildLanes_pending (s : State) : s.rebuildLanes.pending = s.pending := by
  obtain ⟨_, _, rebuilt, -⟩ := s.rebuildLanes_eq
  rw [rebuilt]

/-- R142: the fence changes are sent, and the list of them is emptied. -/
theorem State.sendFenceChanges_pending (s : State) : s.sendFenceChanges.pending = s.pending := by
  have k := kept_pending s
  refine k.fenceChanges (k.foldl _ (fun u i h => ?_) _ rfl) _
  unfold State.sendFenceChange
  split <;> exact k.send h _

/-- R141: the trunk goes UP. -/
theorem State.goUp_pending (s : State) : s.goUp.pending = s.pending := by
  refine (kept_pending s).notifyAll ?_ _
  rw [State.rebuildLanes_pending, State.sendFenceChanges_pending, State.log_pending]
  exact State.hand_pending ..

theorem State.joinWhileJoining_pending (s : State) (j : JoinInfo) : (s.joinWhileJoining j).pending = s.pending := by
  unfold State.joinWhileJoining
  split
  · split <;> rfl
  · dsimp only
    split
    · exact (kept_pending s).finish (State.goUp_pending _)
    · rfl

theorem State.joinUp_pending (s : State) (j : JoinInfo) : (s.joinUp j).pending = s.pending := by
  have k := kept_pending s
  have silenced : (State.received { s with silenceCount := 0 }).pending = s.pending := rfl
  unfold State.joinUp
  dsimp only
  split
  · exact k.finish (k.goLost silenced _)
  · split
    · rfl
    · split
      · rfl
      · exact k.finish (k.goLost silenced _)

theorem State.receiveJoin_pending (s : State) (j : JoinInfo) : (s.receiveJoin j).pending = s.pending := by
  unfold State.receiveJoin
  split
  · split
    · exact s.discardFrame_pending
    · exact s.joinWhileJoining_pending j
  · exact s.joinUp_pending j
  · rfl
  · exact s.discardFrame_pending

/-! ### Ticks (R97, R134 to R139) -/

theorem State.controlTickIf_pending (s : State) (due : Bool) : (s.controlTickIf due).pending = s.pending :=
  State.Within.pending (s := s.tickBase (s.controlTickIf due)) (s.controlTickIf_framed due)

theorem State.sweepTickIf_pending (s : State) (due : Bool) : (s.sweepTickIf due).pending = s.pending :=
  State.Within.pending (s := s.sweepBase (s.sweepTickIf due)) (s.sweepTickIf_framed due)

/-! ### Every command -/

/-- No command ends in a fault or a refusal. -/
theorem exec_isNext (c : Instr) (s : State) : ∃ t, exec c s = .next t := by
  cases c <;> exact ⟨_, rfl⟩

/-- Log entry 1: no command touches the queue, device reset among them (log entry 30). -/
theorem exec_pending {s t : State} (c : Instr) (e : exec c s = .next t) : t.pending = s.pending := by
  cases c with
  | deviceReset => cases e; rfl
  | configLoadEnd image =>
    cases e
    split
    · rw [State.endLoad_eq]
    · rfl
  | hostArrival => cases e; split <;> rfl
  | hostDeparture g =>
    cases e
    split
    · exact s.depart_pending g
    · rfl
  | commandByte => cases e; rfl
  | writeRequest | readReply | readNotice | readStatus => cases e; exact s.endTransaction_pending _ _ _ _ _
  | unknownCommand =>
    cases e
    split
    · rfl
    · exact s.endTransaction_pending _ _ _ _ _
  | openCircuit g | closeRequest g | withdraw g | circuitStatus g | laneStatus g | trunkStatus g | readLog g
  | readParam g | writeParam g | fenceLane g | unfenceLane g | restartTrunk g =>
    exact (exec_request_frame (h := g) e (by simp [requestsOf])).pending
  | badFrame => cases e; split <;> rfl
  | join _ _ j | joinWhileUp _ _ j => cases e; exact s.receiveJoin_pending j
  | ack =>
    cases e
    split
    · exact State.acknowledge_pending _ _
    · exact s.discardFrame_pending
  | setup _ _ g far near cls rw mw pairs => exact exec_pending_of_message (m := .setup g far near cls rw mw pairs) e
  | accept _ _ g slot => exact exec_pending_of_message (m := .accept g slot) e
  | refuse _ _ g r lanes => exact exec_pending_of_message (m := .refuse g r lanes) e
  | trained _ _ g p ok => exact exec_pending_of_message (m := .trained g p ok) e
  | laneFail _ _ g p r => exact exec_pending_of_message (m := .laneFail g p r) e
  | amend _ _ g p l => exact exec_pending_of_message (m := .amend g p l) e
  | amendReply _ _ g p r => exact exec_pending_of_message (m := .amendReply g p r) e
  | close _ _ g r => exact exec_pending_of_message (m := .close g r) e
  | closed _ _ g => exact exec_pending_of_message (m := .closed g) e
  | fence _ _ l r => exact exec_pending_of_message (m := .fence l r) e
  | unfence _ _ l => exact exec_pending_of_message (m := .unfence l) e
  | frameTransmit => cases e; unfold State.beginFrame; split <;> rfl
  | controlTick | retransmit | tccRetry | peerSilent => cases e; exact s.controlTickIf_pending _
  | sweepTick | quarantineRelease | openExpired | seekExhausted => cases e; exact s.sweepTickIf_pending _
  | dwellResult => exact exec_dwellResult_pending e
  | lossOfLock => exact (exec_lossOfLock_within e).pending

/-! ### One step (log entry 1) -/

theorem step_of_pending_cons {s : State} {c : Instr} {rest : List Instr} (front : s.pending = c :: rest) :
    step s = exec c { s with pending := rest } := by
  unfold step
  rw [front]

theorem step_of_pending_nil {s : State} (idle : s.pending = []) : step s = .next s := by
  unfold step
  rw [idle]

/-- Settles O1: a step takes the front command, every command leaves a next state, and none touches the queue. -/
theorem stepTakesFront : Obligations.StepTakesFront := by
  intro c rest s
  obtain ⟨t, runs⟩ := exec_isNext c s
  exact ⟨step_of_pending_cons, step_of_pending_nil, t, runs, exec_pending c runs⟩

end Sys2Proof.Machine
end
